-- ==== Sys2Proof/Word.lean ====
section
/-! DEFINITION. Sys2Proof/Word.lean: the word types of the machine, and the type of a sparse table. -/

namespace Sys2Proof

/-- A byte (R12). -/
abbrev Byte := BitVec 8
/-- A 16-bit word. -/
abbrev W16 := BitVec 16
/-- A 32-bit register or memory word. -/
abbrev W32 := BitVec 32
/-- A 64-bit word: a hart register, a queue word, a wide value. -/
abbrev W64 := BitVec 64
/-- A 128-bit word: a command instruction or a flit header. -/
abbrev W128 := BitVec 128

/-- A sparse table by number: entries with rising keys, none equal to what an unlisted key reads as. -/
abbrev Tab (α : Type) := List (Nat × α)

end Sys2Proof
end

