-- ==== Sys2Proof/Names.lean ====
section
/-! DEFINITION. Sys2Proof/Names.lean: the names and numbers by which a command names a part of the module (R19, R20,
R37, R702), and the data a command brings from outside. -/

namespace Sys2Proof

/-- The two resident contexts (R37). -/
inductive Ctx where
  | d | t
deriving DecidableEq, Repr

/-- The three requesters of registers (R702). -/
inductive Req where
  | host | msp | debug
deriving DecidableEq, Repr

/-- What a PCIe configuration request does (R687 to R690): a read or a write of a doubleword of the standard header, or a
write of the power state, of the MSI-X control word or of BAR2's size (2^log GiB), whose offsets the spec does not give. -/
inductive CfgReq where
  | read (off : Nat)
  | write (off : Nat) (val : W32)
  | power (d3 : Bool)
  | msix (on mask : Bool)
  | bar2Size (log : Fin 10)
deriving DecidableEq, Repr

/-- The path of a management-mailbox command (R768). -/
inductive MbPath where
  | host | sideband
deriving DecidableEq, Repr

/-- Module-wide core number (R20). -/
abbrev CoreId := Fin 128
abbrev DieId := Fin 4
abbrev RegionId := Fin 8
abbrev ClusterId := Fin 32
/-- Weave engine of a core. -/
abbrev EngId := Fin 2
/-- Instruction queue, or the unit behind it (R274). -/
abbrev UnitId := Fin 6
/-- A waiter of a context on a core: the six queue heads and the hart (R449, R465). -/
abbrev WaiterId := Fin 7
/-- Integer register of a hart. -/
abbrev XReg := Fin 32
/-- Ibcia port (R34). -/
abbrev PortId := Fin 24
/-- CXL root port. -/
abbrev RootId := Fin 4
/-- DMA channel (R466). -/
abbrev ChanId := Fin 96
/-- Arbiter port (R506). -/
abbrev ArbId := Fin 138
/-- Module-wide sync counter (R269). -/
abbrev CtrId := Fin 16384
/-- Reduction group (R632). -/
abbrev GrpId := Fin 4096
/-- Return entry (R662). -/
abbrev RetId := Fin 1024
/-- Fast-barrier slot of a cluster, or injection slot (R293, R805). -/
abbrev SlotId := Fin 16
/-- I/O die: 0 A, 1 B. -/
abbrev IodId := Fin 2

/-- A 256-byte flit arriving at a port (R591): the 128-bit header, the 240 payload bytes, whether it overlaps a codeword that
the decoder reports as uncorrectable (R618), and of the codewords whose last symbol comes with it, how many are uncorrectable and
how many were corrected (R617, R631). -/
structure FlitIn where
  hdr : W128
  payload : List Byte
  unc : Bool
  uncw : Nat
  cor : Nat
deriving DecidableEq, Repr

/-- The sources of lottery tickets (R493). -/
inductive ArbWho where
  | dma (ch : ChanId)
  | withy (core : CoreId) (ctx : Ctx)
  | hostBar
  | debug
  | msp
deriving DecidableEq, Repr

/-- A request at an input of a shared port (R493). -/
structure ArbReq where
  input : Nat
  who : ArbWho
deriving DecidableEq, Repr

/-- What the peer's training frames of a state exchange (R621): the lane polarity and reversal found, and the peer's
generation limit, endpoint block and port number. -/
structure TrainFrame where
  polinv : Fin 16
  lrev : Bool
  genMax : Fin 4
  peerBlk : Fin 4096
  peerPort : Fin 32
deriving DecidableEq, Repr

end Sys2Proof
end

