-- ==== Sys2Proof/Syntax.lean ====
section
/-! DEFINITION. Sys2Proof/Syntax.lean: the commands of the module, one constructor for each row of the table of
operations and events. A command is one whole step: an instruction or a register strobe of the part, or an event that
reaches it. Its operands are what the sender chooses, or what the world outside the module brings. -/

namespace Sys2Proof

/-- A command: one row of opcode_table.json. -/
inductive Instr where
  /-- ROUND_BOUNDARY (R82). The internal Round generator reaches PERIOD µs of device time after the previous boundary and performs every boundary action in order. -/
  | roundBoundary
  /-- ROUND_IN_EDGE (R84). A rising edge on ROUND_IN arrives; inside the acceptance window, or in ARMED, it makes the Round boundary. -/
  | roundInEdge (dt : Nat)
  /-- MISSED_EDGE (R86). No ROUND_IN edge has arrived by E + GUARD, so the device makes the boundary itself and counts the miss. -/
  | missedEdge
  /-- ROUND_OUT_PULSE (R89). OUTLEAD ns before each of its own boundaries, the module starts the 100 ns ROUND_OUT pulse. -/
  | roundOutPulse
  /-- WINDOW_BOUNDARY (R60). A window's length expires: the closing window's end marks are checked and, if the owner changes, issue of the outgoing context stops. -/
  | windowBoundary
  /-- SWITCH_COMPLETE (R62). The outgoing context's in-flight instructions on a core have retired, so the incoming context begins to issue there. -/
  | switchComplete (core : CoreId)
  /-- FLOW_REALIGN_T (R77). Every core of a die has retired its context T in-flight work at the boundary, so context T's flow counters are re-aligned. -/
  | flowRealignT (die : DieId)
  /-- INSTRUCTION_OVER_TIME (R69). An instruction is still in flight 20 µs after issue, so it is stopped and its context's issue on the core halts. -/
  | instructionOverTime (core : CoreId) (unit : UnitId) (finished : Nat)
  /-- ROUNDS_START (R91). Host software writes 1 to RNDCTL.RUN, which schedules the first boundary or arms the device for ROUND_IN. -/
  | roundsStart (req : Req)
  /-- ROUNDS_STOP (R94). Host software writes 0 to RNDCTL.RUN with no job loaded, so Rounds stop at the next boundary. -/
  | roundsStop (req : Req)
  /-- RNDCTL_CLRCNT (R96). A write of 1 to RNDCTL.CLRCNT clears the Round block's event counters. -/
  | rndctlClrcnt (req : Req)
  /-- DOVR_RELEASE (R73). A write of 1 to RNDSTAT.DOVR clears the overrun flag and releases a held context D. -/
  | dovrRelease (req : Req)
  /-- WEAVE (R143). A Weave instruction issues and accumulates rank-k updates into its destination mats through blocks and the carry cascade. -/
  | weave (core : CoreId) (eng : EngId)
  /-- UNLOAD (R171). An Unload issues and scales, optionally curves, converts and writes mats to local-store tiles. -/
  | unload (core : CoreId) (eng : EngId)
  /-- INSTRUCTION_RETIRE (R311). A command instruction's operation completes and it performs its effects, its signal and its completion post. -/
  | instructionRetire (core : CoreId) (unit : UnitId)
  /-- RAMPDOWN_START (R187). An engine has spent DUMTHR cycles in DUMMY, so it enters RAMPDOWN. -/
  | rampdownStart (core : CoreId) (eng : EngId)
  /-- RAMP_STEP (R187). A ramp step of T/N elapses and the engine moves to the next RAMPDOWN or RAMPUP step, or to QUIET or FULL. -/
  | rampStep (core : CoreId) (eng : EngId)
  /-- WVCTL_ENABLE (R193). A write to WVCTL.ENABLE starts the engine or drains it at the next instruction boundary. -/
  | wvctlEnable (req : Req) (core : CoreId) (eng : EngId) (on : Bool)
  /-- WVCTL_ABORT (R194). A write of 1 to WVCTL.ABORT discards every queued instruction of the engine in both contexts. -/
  | wvctlAbort (req : Req) (core : CoreId) (eng : EngId)
  /-- WVCTL_CLRCNT (R200). A write of 1 to WVCTL.CLRCNT clears the engine's counters. -/
  | wvctlClrcnt (req : Req) (core : CoreId) (eng : EngId)
  /-- WVCFG_LOCK (R201). A write of 1 to WVCFG.LOCK locks the ramp and dummy fields until reset. -/
  | wvcfgLock (req : Req) (core : CoreId) (eng : EngId)
  /-- WVDBGDAT_READ (R198). A read of a debug-window data register returns one mat word, or 0 with a Notice when debug mode is disabled. -/
  | wvdbgdatRead (req : Req) (core : CoreId) (col : XReg)
  /-- MOV (R214). Vector MOV copies A to D with conversion. -/
  | vMov (core : CoreId)
  /-- ADD (R214). Vector ADD writes A + B. -/
  | vAdd (core : CoreId)
  /-- SUB (R214). Vector SUB writes A − B. -/
  | vSub (core : CoreId)
  /-- MUL (R214). Vector MUL writes A × B. -/
  | vMul (core : CoreId)
  /-- FMA (R214). Vector FMA writes A × B + C with one rounding. -/
  | vFma (core : CoreId)
  /-- MIN (R214). Vector MIN writes min(A, B). -/
  | vMin (core : CoreId)
  /-- MAX (R214). Vector MAX writes max(A, B). -/
  | vMax (core : CoreId)
  /-- ABS (R214). Vector ABS writes |A|. -/
  | vAbs (core : CoreId)
  /-- NEG (R214). Vector NEG writes −A. -/
  | vNeg (core : CoreId)
  /-- CMPEQ (R215). Vector CMPEQ writes an equality mask to a register. -/
  | vCmpeq (core : CoreId)
  /-- CMPNE (R215). Vector CMPNE writes an inequality mask to a register. -/
  | vCmpne (core : CoreId)
  /-- CMPLT (R215). Vector CMPLT writes a less-than mask to a register. -/
  | vCmplt (core : CoreId)
  /-- CMPLE (R215). Vector CMPLE writes a less-or-equal mask to a register. -/
  | vCmple (core : CoreId)
  /-- SEL (R214). Vector SEL writes A where C's high bit is 1 and B elsewhere. -/
  | vSel (core : CoreId)
  /-- RCP (R216). Vector RCP writes the correctly rounded reciprocal of A. -/
  | vRcp (core : CoreId)
  /-- RSQRT (R216). Vector RSQRT writes the correctly rounded reciprocal square root of A. -/
  | vRsqrt (core : CoreId)
  /-- CURVE (R220). Vector CURVE evaluates the named curve table at A. -/
  | vCurve (core : CoreId)
  /-- CGRAD (R225). Vector CGRAD multiplies the incoming gradient by the derivative found from the saved value. -/
  | vCgrad (core : CoreId)
  /-- DROP (R240). Vector DROP zeroes elements by draw against P and scales the rest. -/
  | vDrop (core : CoreId)
  /-- CVT (R217). Vector CVT converts between any two formats, MX included. -/
  | vCvt (core : CoreId)
  /-- SUM (R228). Vector SUM reduces segments by addition. -/
  | vSum (core : CoreId)
  /-- MAXR (R228). Vector MAXR reduces segments by maximum. -/
  | vMaxr (core : CoreId)
  /-- MINR (R228). Vector MINR reduces segments by minimum. -/
  | vMinr (core : CoreId)
  /-- SUMSQ (R228). Vector SUMSQ reduces segments by sum of squares. -/
  | vSumsq (core : CoreId)
  /-- MOMENTS (R229). Vector MOMENTS forms count, mean and squared deviations in one pass. -/
  | vMoments (core : CoreId)
  /-- MCOMB (R230). Vector MCOMB combines two moment result sets. -/
  | vMcomb (core : CoreId)
  /-- TOPK (R231). Vector TOPK selects the k candidates with the largest keys per segment. -/
  | vTopk (core : CoreId)
  /-- CRVLD (R222). CRVLD loads a 3,136-byte curve table into a program slot and marks it valid or invalid. -/
  | vCrvld (core : CoreId)
  /-- RSEED (R238). RSEED reseeds the context's 320 generator positions from a seed in local store. -/
  | vRseed (core : CoreId)
  /-- RSAVE (R238). RSAVE writes the context's 320 generator states to local store. -/
  | vRsave (core : CoreId)
  /-- RLOAD (R238). RLOAD restores the context's 320 generator states from local store. -/
  | vRload (core : CoreId)
  /-- VUCTL_ENABLE (R246). A write to VUCTL.ENABLE starts the vector unit or drains it. -/
  | vuctlEnable (req : Req) (core : CoreId) (on : Bool)
  /-- VUCTL_ABORT (R246). A write of 1 to VUCTL.ABORT discards the vector unit's queued instructions of both contexts. -/
  | vuctlAbort (req : Req) (core : CoreId)
  /-- VUCTL_CLRCNT (R249). A write of 1 to VUCTL.CLRCNT clears VUDISC and VUCRVBAD. -/
  | vuctlClrcnt (req : Req) (core : CoreId)
  /-- HART_INSTRUCTION (R256). A hart executes one RV64IMAC, Zicsr or Zifencei instruction in machine mode. -/
  | hartInstruction (core : CoreId) (ctx : Ctx)
  /-- ECALL (R285). ECALL ends the program by halting the context with code 0x0A. -/
  | ecall (core : CoreId) (ctx : Ctx)
  /-- EBREAK (R285). EBREAK halts the context with code 0x0B. -/
  | ebreak (core : CoreId) (ctx : Ctx)
  /-- WFI (R266). WFI stops the hart from issuing until a message or completion arrives or 1 µs passes. -/
  | wfi (core : CoreId) (ctx : Ctx)
  /-- WFI_WAKE (R266). A word reaches the hart's message or completion queue, or 1 µs passes, so the hart resumes after WFI. -/
  | wfiWake (core : CoreId) (ctx : Ctx)
  /-- QPUSH (R279). QPUSH places a command word in a queue, stalling when the context has no credit. -/
  | qpush (core : CoreId) (ctx : Ctx) (q : Fin 8) (rs1 : XReg) (rs2 : XReg)
  /-- QPUSH_RESUME (R279). A credit returns and a stalled QPUSH completes. -/
  | qpushResume (core : CoreId) (ctx : Ctx)
  /-- QPUSHNB (R279). QPUSHNB places a command word if a credit is free and returns whether it was accepted. -/
  | qpushnb (core : CoreId) (ctx : Ctx) (rd : XReg) (q : Fin 8) (rs1 : XReg) (rs2 : XReg)
  /-- QCRED (R268). QCRED returns the context's free credits on a queue. -/
  | qcred (core : CoreId) (ctx : Ctx) (rd : XReg) (q : Fin 8)
  /-- CPOP (R271). CPOP removes and returns the oldest completion word, or an invalid word when empty. -/
  | cpop (core : CoreId) (ctx : Ctx) (rd : XReg)
  /-- MPOP (R423). MPOP removes and returns the oldest word of a message queue, or an invalid word when empty. -/
  | mpop (core : CoreId) (ctx : Ctx) (rd : XReg) (rs1 : XReg)
  /-- XFLAG_READ (R272). XFLAG with funct7 0 returns the context's sticky flags. -/
  | xflagRead (core : CoreId) (ctx : Ctx) (rd : XReg)
  /-- XFLAG_CLEAR (R272). XFLAG with funct7 1 returns the flags and clears those named in rs1. -/
  | xflagClear (core : CoreId) (ctx : Ctx) (rd : XReg) (rs1 : XReg)
  /-- XFENCE (R273). XFENCE stalls the hart until earlier pushes to the masked queues have retired. -/
  | xfence (core : CoreId) (ctx : Ctx) (mask : Fin 64)
  /-- XFENCE_RELEASE (R273). The fenced instructions have retired, so the stalled XFENCE completes. -/
  | xfenceRelease (core : CoreId) (ctx : Ctx)
  /-- SCRD (R269). SCRD returns the value of a sync counter. -/
  | scrd (core : CoreId) (ctx : Ctx) (rd : XReg) (rs1 : XReg)
  /-- SCADD (R270). SCADD posts a signed add to a sync counter. -/
  | scadd (core : CoreId) (ctx : Ctx) (rs1 : XReg) (rs2 : XReg)
  /-- SCSET (R270). SCSET posts a set of a sync counter. -/
  | scset (core : CoreId) (ctx : Ctx) (rs1 : XReg) (rs2 : XReg)
  /-- SCWAIT (R269). SCWAIT stalls the hart until a counter meets a 32-bit threshold. -/
  | scwait (core : CoreId) (ctx : Ctx) (rd : XReg) (rs1 : XReg) (rs2 : XReg)
  /-- SCWAIT_RELEASE (R442). The waited counter meets the threshold, so the stalled SCWAIT completes with the value. -/
  | scwaitRelease (core : CoreId) (ctx : Ctx)
  /-- XBAR (R293). XBAR arrives at a fast-barrier slot and stalls the hart until every named hart arrives. -/
  | xbar (core : CoreId) (ctx : Ctx) (rs1 : XReg) (rs2 : XReg)
  /-- FAST_BARRIER_RELEASE (R448). The last participant arrives and every waiting hart of the slot is released. -/
  | fastBarrierRelease (cluster : ClusterId) (slot : SlotId)
  /-- CPCTL_ENABLE (R289). A write to CPCTL.ENABLE runs both harts or stops them at the next instruction boundary. -/
  | cpctlEnable (req : Req) (core : CoreId) (on : Bool)
  /-- CPCTL_HALT (R287). A write of 1 to HALTD or HALTT halts the context in debug mode. -/
  | cpctlHalt (req : Req) (core : CoreId) (ctx : Ctx)
  /-- CPCTL_RESUME (R286). A write of 1 to RESUMED or RESUMET resumes a halted context in debug mode. -/
  | cpctlResume (req : Req) (core : CoreId) (ctx : Ctx)
  /-- CPCTL_STEP (R287). A write of 1 to STEPD or STEPT executes one instruction of a halted hart. -/
  | cpctlStep (req : Req) (core : CoreId) (ctx : Ctx)
  /-- CPCTL_ABORT (R290). A write of 1 to ABORTD or ABORTT discards every queued entry of the context on the core. -/
  | cpctlAbort (req : Req) (core : CoreId) (ctx : Ctx)
  /-- CPCTL_CLRCNT (R295). A write of 1 to CPCTL.CLRCNT clears CQOVFD and CQOVFT. -/
  | cpctlClrcnt (req : Req) (core : CoreId)
  /-- CPCTL_DBGLOCK (R288). A write of 1 to CPCTL.DBGLOCK locks DBGEN until reset. -/
  | cpctlDbglock (req : Req) (core : CoreId)
  /-- SNOP (R354). SNOP does nothing beyond its wait, signal and completion. -/
  | snop (core : CoreId)
  /-- SADD (R354). SADD adds a signed value to a counter. -/
  | sadd (core : CoreId)
  /-- SSET (R440). SSET sets a counter, or resets a barrier counter's generation. -/
  | sset (core : CoreId)
  /-- SBAR (R445). SBAR makes a core's arrival at a barrier counter, completing generations as counts are met. -/
  | sbar (core : CoreId)
  /-- CNOP (R356). CNOP does nothing. -/
  | cnop (core : CoreId)
  /-- WEND (R358). WEND is the window-end mark that satisfies its window when it retires in it. -/
  | wend (core : CoreId)
  /-- CDRAIN (R356). CDRAIN retires once every earlier instruction of its context on the core has retired. -/
  | cdrain (core : CoreId)
  /-- MOVET (R346). MOVET copies tiles with their scales between local store and device memory. -/
  | movet (core : CoreId)
  /-- MOVER (R346). MOVER copies RLEN raw bytes per iteration. -/
  | mover (core : CoreId)
  /-- WSTORE (R350). WSTORE posts withy stores of up to 256 bytes. -/
  | wstore (core : CoreId)
  /-- WMSG (R350). WMSG sends queue words to a message queue of an endpoint. -/
  | wmsg (core : CoreId)
  /-- DMAGO (R477). DMAGO loads a context-owned channel's shadow set and starts it. -/
  | dmago (core : CoreId)
  /-- CICTL_CLRCNT (R366). A write of 1 to CICTL.CLRCNT clears the descriptor and window-end counters. -/
  | cictlClrcnt (req : Req) (core : CoreId)
  /-- WAIT_TIMEOUT (R452). A waiter's timer reaches its limit, so the device snapshots the context's waiters and halts it. -/
  | waitTimeout (core : CoreId) (ctx : Ctx) (waiter : WaiterId)
  /-- JLCTL_GO (R404). A write of 1 to JLCTL.GO starts loading the manifest at JLADDR into the context. -/
  | jlctlGo (req : Req)
  /-- LOAD_DONE (R405). The loader finishes its checks and writes, and accepts or refuses the load in JLSTAT. -/
  | loadDone
  /-- JLCTL_UNLOAD (R406). A write of 1 to JLCTL.UNLOAD aborts the context's queued work and begins removing it. -/
  | jlctlUnload (req : Req)
  /-- UNLOAD_DRAINED (R406). The unloaded context's in-flight work has retired, so its cache ways, partitions, counters and queues are released. -/
  | unloadDrained
  /-- SCCTL_RELEASE (R382). A write of 1 to SCCTL.RELD or RELT releases the context's retained marks. -/
  | scctlRelease (req : Req) (region : RegionId) (ctx : Ctx)
  /-- SCCTL_FLUSH (R410). A write of 1 to SCCTL.FLUSH writes back and invalidates every line unless a job is loaded. -/
  | scctlFlush (req : Req) (region : RegionId)
  /-- SCCTL_CLRCNT (R410). A write of 1 to SCCTL.CLRCNT clears the shared-cache counters. -/
  | scctlClrcnt (req : Req) (region : RegionId)
  /-- MEMCTL_CLRCNT (R412). A write of 1 to MEMCTL.CLRCNT clears MEMCOR, MEMUNC and INWREF. -/
  | memctlClrcnt (req : Req)
  /-- CACHE_FILL_COMPLETE (R379). A shared-cache fill from HBM returns and serves every merged request. -/
  | cacheFillComplete (region : RegionId) (line : Nat)
  /-- SCRUB_PATROL (R397). The scrubber reads the next word of its patrol and rewrites it if corrected. -/
  | scrubPatrol (die : DieId) (addr : Nat) (found : Nat)
  /-- SCRUB_REWRITE (R396). The scrubber rewrites an address from the die's rewrite queue. -/
  | scrubRewrite (die : DieId)
  /-- CXL_LINK_FAILURE (R390). A CXL root port's link fails, raising faults for the contexts that use it. -/
  | cxlLinkFailure (port : RootId)
  /-- BAR2_READ (R392). A host read through BAR2 reads HBM at the window's device address. -/
  | bar2Read (off : Nat) (len : Nat)
  /-- BAR2_WRITE (R691). A host write through BAR2 writes HBM at the window's device address. -/
  | bar2Write (off : Nat) (data : (List (Option Byte)))
  /-- WITHY_MESSAGE_DELIVERY (R422). A message reaches a core's message queue and is appended whole or dropped whole. -/
  | withyMessageDelivery
  /-- WITHY_STORE_DELIVERY (R489). A withy store reaches its target and takes effect as one write, or is refused. -/
  | withyStoreDelivery
  /-- WITHY_ERROR_RETURN (R490). A refusal of a withy store returns to the source core, which counts it and raises a Contained fault. -/
  | withyErrorReturn
  /-- SCNTVAL_WRITE (R461). A host write to SCNTVAL sets an unowned counter, or is refused for an owned one. -/
  | scntvalWrite (req : Req) (ctr : CtrId) (val : W32)
  /-- SNCTL_CLRCNT (R459). A write of 1 to SNCTL.CLRCNT clears the sync block's counters. -/
  | snctlClrcnt (req : Req) (die : DieId)
  /-- MQCTL_CLRCNT (R463). A write of 1 to MQCTL.CLRCNT clears the message-queue counters. -/
  | mqctlClrcnt (req : Req) (core : CoreId)
  /-- DMACTL_GO (R476). A write of 1 to DMACTL.GO loads the shadow set of a host-owned channel from SLIST and SNENT. -/
  | dmactlGo (req : Req) (ch : ChanId)
  /-- DMACTL_ABORT (R485). A write of 1 to DMACTL.ABORT discards the list in progress and the pending list. -/
  | dmactlAbort (req : Req) (ch : ChanId)
  /-- DMACTL_ENABLE (R485). A write to DMACTL.ENABLE resumes the channel or drains it at the next burst boundary. -/
  | dmactlEnable (req : Req) (ch : ChanId) (on : Bool)
  /-- DMACTL_CLRCNT (R501). A write of 1 to DMACTL.CLRCNT clears DMADISC and DMAERRC. -/
  | dmactlClrcnt (req : Req) (ch : ChanId)
  /-- DMA_LIST_START (R476). The register set is free and enabled, so the pending list moves into it. -/
  | dmaListStart (ch : ChanId)
  /-- DMA_ENTRY_FETCH (R473). The channel reads the next list entry ahead of the entry in progress. -/
  | dmaEntryFetch (ch : ChanId)
  /-- DMA_BURST (R483). The rate accumulator holds enough units, so the channel starts a destination burst. -/
  | dmaBurst (ch : ChanId)
  /-- DMA_WRITE_COMPLETE (R481). A destination write of a list is accepted by its target storage. -/
  | dmaWriteComplete (ch : ChanId)
  /-- LOTTERY_DECISION (R496). In the fabric cycle before a burst boundary, a shared port draws the next unscheduled grant. -/
  | lotteryDecision (port : ArbId) (reqs : (List ArbReq))
  /-- BURST_BOUNDARY (R494). A burst at a shared port ends and the next burst starts for a scheduled request or the granted one. -/
  | burstBoundary (port : ArbId) (sched : (List Nat)) (waiting : (List Nat))
  /-- BACKOFF_EXPIRY (R499). A losing input's back-off of B fabric cycles ends and it becomes eligible again. -/
  | backoffExpiry (port : ArbId) (input : Nat)
  /-- ARBSEED_WRITE (R497). A write to ARBSEED loads the port's LFSR state, with 0 loaded as 1. -/
  | arbseedWrite (req : Req) (port : ArbId) (val : W32)
  /-- ARBCFG_CLRCNT (R506). A write of 1 to ARBCFG.CLRCNT clears the port's arbiter counters. -/
  | arbcfgClrcnt (req : Req) (port : ArbId)
  /-- WYCTL_CLRCNT (R507). A write of 1 to WYCTL.CLRCNT clears WYERRD and WYERRT. -/
  | wyctlClrcnt (req : Req) (core : CoreId)
  /-- STEP_TRIGGER (R520). TRIGCTR reaches TRIGTHR, so the step unit subtracts it, arms return entries and sends its vote. -/
  | stepTrigger
  /-- STEP_COMMIT (R521). The vote result arrives and the step unit reaches the verdict, updates the step state and loss scale, and posts notices. -/
  | stepCommit
  /-- VOTE_TIMEOUT (R522). The vote result has not arrived after VTO Rounds, so the step is committed as skipped and DESYNC is set. -/
  | voteTimeout
  /-- STEPCTL_ENABLE (R541). A write to STEPCTL.ENABLE lets the step unit take triggers, or stops it after a vote in progress commits. -/
  | stepctlEnable (req : Req) (on : Bool)
  /-- STEPCTL_CLRCNT (R541). A write of 1 to STEPCTL.CLRCNT clears the step-unit counters. -/
  | stepctlClrcnt (req : Req)
  /-- BATCH_COMPLETE (R557). A batch's done counter reaches NCORE after older batches, so the unit reads and resets its lane counters. -/
  | batchComplete
  /-- RECORD_DELIVERY (R564). The unit stamps a completed batch's records, writes them to the output ring and the chain hash, and updates OUTPROD. -/
  | recordDelivery
  /-- IDIG_COMPLETE (R570). Hashing the events of a cut finishes and IDIG is ready. -/
  | idigComplete
  /-- SEAL_WRITE (R567). After a closed block's last record is delivered, the unit writes its seal and OUTPROD. -/
  | sealWrite
  /-- HEAD_SIGNING (R571). A signing instant of SIGPER arrives and the MSP starts signing the chain head with both keys. -/
  | headSigning
  /-- SIGNED_ENTRY_WRITE (R571). The signing completes and the signed entry and SIGPROD are written to the signature ring. -/
  | signedEntryWrite
  /-- LEDCTL_SIGNOW (R571). A write of 1 to LEDCTL.SIGNOW signs the chain head now. -/
  | ledctlSignow (req : Req)
  /-- LEDCTL_RESUME (R560). A write of 1 to LEDCTL.RESUME resets lane and done counters and resumes cuts. -/
  | ledctlResume (req : Req)
  /-- LEDCTL_ENABLE (R576). A write to LEDCTL.ENABLE starts or drains the ledger unit's cuts and collection. -/
  | ledctlEnable (req : Req) (on : Bool)
  /-- LEDCTL_CLRCNT (R577). A write of 1 to LEDCTL.CLRCNT clears the ledger counters. -/
  | ledctlClrcnt (req : Req)
  /-- LINK_FLIT (R601). A LINK flit arrives carrying the peer's XOFF mask and any NAK. -/
  | linkFlit (port : PortId) (flit : FlitIn)
  /-- WRITE_FLIT (R594). A WRITE flit arrives and is routed or written at its target and answered. -/
  | writeFlit (port : PortId) (flit : FlitIn)
  /-- READ_FLIT (R594). A READ flit arrives and is routed or answered with RDATA or ERR. -/
  | readFlit (port : PortId) (flit : FlitIn)
  /-- RDATA_FLIT (R597). An RDATA flit arrives and completes a read at its requester. -/
  | rdataFlit (port : PortId) (flit : FlitIn)
  /-- MSG_FLIT (R595). An MSG flit arrives and its words are appended to a core's message queue. -/
  | msgFlit (port : PortId) (flit : FlitIn)
  /-- CTR_FLIT (R594). A CTR flit arrives and adds to or sets a sync counter. -/
  | ctrFlit (port : PortId) (flit : FlitIn)
  /-- ACK_FLIT (R597). An ACK flit arrives and completes a request at its requester. -/
  | ackFlit (port : PortId) (flit : FlitIn)
  /-- ERR_FLIT (R598). An ERR flit arrives and completes a request with an error at its requester. -/
  | errFlit (port : PortId) (flit : FlitIn)
  /-- MCWRITE_FLIT (R609). An MCWRITE flit arrives, is copied per its multicast entry, and is written locally. -/
  | mcwriteFlit (port : PortId) (flit : FlitIn)
  /-- RED_FLIT (R644). A RED flit reaches its group's adder and is summed, opens an instance, or is discarded. -/
  | redFlit (port : PortId) (flit : FlitIn)
  /-- MGMT_FLIT (R593). An MGMT flit arrives and is passed to the MSP. -/
  | mgmtFlit (port : PortId) (flit : FlitIn)
  /-- NAK_REPEAT (R619). 500 ns pass without the expected flit, so the receiver repeats its NAK. -/
  | nakRepeat (port : PortId)
  /-- REPLAY_RELEASE (R618). A kept flit's RPRET retention expires and it leaves the replay buffer. -/
  | replayRelease (port : PortId)
  /-- REMOTE_TIMEOUT (R599). A remote request has had no response for RMTTO µs, so it completes with an error. -/
  | remoteTimeout
  /-- TRAINING_FRAME (R621). A training frame arrives and moves the port through its training states. -/
  | trainingFrame (port : PortId) (frame : TrainFrame)
  /-- TRAINING_LIMIT_EXPIRY (R622). A training state exceeds its limit, returning the port to DETECT or, after three, to FAILED. -/
  | trainingLimitExpiry (port : PortId)
  /-- CODEWORD_LOCK_LOSS (R622). An ACTIVE port loses codeword lock or exceeds UNCLIM and enters RETRAIN. -/
  | codewordLockLoss (port : PortId)
  /-- EPOCH_HOLD_RELEASE (R615). Every old-epoch unscheduled WRITE, MSG or CTR is answered or timed out, so new-epoch ones may be injected. -/
  | epochHoldRelease
  /-- RTCTL_ARM (R612). A write of 1 to RTCTL.ARM arms the route-epoch advance for RTGORND. -/
  | rtctlArm (req : Req)
  /-- RTCTL_CLRCNT (R626). A write of 1 to RTCTL.CLRCNT clears the fabric counters. -/
  | rtctlClrcnt (req : Req)
  /-- RTDATA_ACCESS (R627). A read or write of RTDATA accesses the selected table entry and advances RTSEL.INDEX. -/
  | rtdataAccess (req : Req) (write : (Option W32))
  /-- EPCFG_LOCK (R626). A write of 1 to EPCFG.LOCK locks EPBASE until reset. -/
  | epcfgLock (req : Req)
  /-- LNKCTL_RETRAIN (R624). A write of 1 to LNKCTL.RETRAIN retrains the port or leaves FAILED, unless refused under load. -/
  | lnkctlRetrain (req : Req) (port : PortId)
  /-- LNKCTL_ENABLE (R630). A write to LNKCTL.ENABLE takes the port out of DISABLED or back into it. -/
  | lnkctlEnable (req : Req) (port : PortId) (on : Bool)
  /-- LNKCTL_CLRCNT (R630). A write of 1 to LNKCTL.CLRCNT clears the port's counters. -/
  | lnkctlClrcnt (req : Req) (port : PortId)
  /-- LOCAL_SEND_START (R639). A binding's trigger counter reaches its threshold and a free send starts injecting RED flits. -/
  | localSendStart (grp : GrpId)
  /-- LOCAL_SEND_SENT (R641). A local send's last source read completes, so SENTCTR is signalled. -/
  | localSendSent
  /-- REDUCTION_CUTOFF (R650). An instance's cut-off passes, so its open slots are emitted and it closes. -/
  | reductionCutoff (iod : IodId) (grp : GrpId)
  /-- ROOT_CLOSE (R655). A root instance's last delivery write completes, so the result record is written and DONECTR signalled. -/
  | rootClose (iod : IodId) (grp : GrpId)
  /-- RETURN_CLOSE (R659). A member's all-reduce return reaches RETOFF and closes with missing offsets written as NaN. -/
  | returnClose (grp : GrpId)
  /-- RETURN_STALE (R666). A return entry is incomplete RETTO µs after the commit, so it is marked stale. -/
  | returnStale (ent : RetId)
  /-- COLCTL_ENABLE (R679). A write to COLCTL.ENABLE runs local sends or drains them. -/
  | colctlEnable (req : Req) (on : Bool)
  /-- COLCTL_ABORT (R679). A write of 1 to COLCTL.ABORT discards active and pending local sends. -/
  | colctlAbort (req : Req)
  /-- COLCTL_CLRCNT (R681). A write of 1 to COLCTL.CLRCNT clears the collective counters. -/
  | colctlClrcnt (req : Req)
  /-- GRPDATA_ACCESS (R682). An access to the group-entry data registers reads or writes the selected entry, GRPDATA2 advancing the index. -/
  | grpdataAccess (req : Req) (word : Fin 3) (write : (Option W32))
  /-- IDLCTL_CLEAR (R686). A write of 1 to IDLCTL.CLRD or CLRT clears a context's eight idle counters. -/
  | idlctlClear (req : Req) (core : CoreId) (ctx : Ctx)
  /-- IDLE_COUNTER_WRAP (R677). An idle counter passes 2⁴⁸ − 1, wraps to 0 and sets its IDLWRAP bit. -/
  | idleCounterWrap (core : CoreId) (ctx : Ctx) (k : Fin 8)
  /-- CONFIG_REQUEST (R688). A PCIe configuration request is answered with retry before Base completes and normally after. -/
  | configRequest (r : CfgReq)
  /-- BAR4_MESSAGE_WRITE (R693). A host write to a BAR4 message page delivers one message to the page's queue. -/
  | bar4MessageWrite (core : CoreId) (q : SlotId) (words : (List W64))
  /-- COUNTER_DOORBELL (R695). A host write to a BAR4 counter doorbell adds its signed value to the counter. -/
  | counterDoorbell (ctr : CtrId) (val : W32)
  /-- BAR4_BAD_WRITE (R697). A BAR4 write that matches no page or doorbell is dropped and recorded. -/
  | bar4BadWrite (off : Nat) (data : (List (Option Byte)))
  /-- MSIX_UNMASK (R698). A pending MSI-X vector is unmasked or released, so its one message is sent. -/
  | msixUnmask (vec : Fin 2048)
  /-- REGISTER_WRITE (R699). A write to a register field without a row of its own takes effect, is staged, or is refused under its rule. -/
  | registerWrite (req : Req) (off : Nat) (val : W32) (be : Fin 16)
  /-- REGISTER_ACCESS_TIMEOUT (R705). An access has not crossed its block's domain within 2 µs, so it is aborted and recorded. -/
  | registerAccessTimeout (req : Req) (off : Nat) (write : Bool)
  /-- MAILBOX_READ (R709). A write to WMSEL with WR 0 captures a 64-bit value into WMLO and WMHI. -/
  | mailboxRead (req : Req) (off : Nat) (sel : W16)
  /-- MAILBOX_WRITE (R710). A write to WMSEL with WR 1 applies or refuses a 64-bit value. -/
  | mailboxWrite (req : Req) (off : Nat) (sel : W16)
  /-- MAILBOX_TIMEOUT (R711). A mailbox operation has not completed in 2 µs, so it ends with ERRCODE 0x4. -/
  | mailboxTimeout (req : Req) (off : Nat)
  /-- UPDSTB_FIRE (R715). A write of 1 to an UPDSTB.FIRE bit applies that update domain whole or refuses it. -/
  | updstbFire (req : Req) (mask : W16)
  /-- UPDSTB_ARM (R715). A write of 1 to an UPDSTB.ARM bit arms that update domain for the next Round boundary. -/
  | updstbArm (req : Req) (mask : W16)
  /-- REGCTL_CLRCNT (R729). A write of 1 to REGCTL.CLRCNT clears REGTO, REGERRC and LOCKREF. -/
  | regctlClrcnt (req : Req)
  /-- FUNCTION_LEVEL_RESET (R726). A Function Level Reset aborts host channels, unloads both contexts and resets the host-side state. -/
  | functionLevelReset
  /-- PERST_ASSERT (R726). PERST# is asserted, resetting as a Function Level Reset does and retraining the host link. -/
  | perstAssert
  /-- AUX_GOOD (R738). 3.3 V AUX becomes good and the Base stage runs from mask ROM. -/
  | auxGood
  /-- AUX_LOSS (R848). 3.3 V AUX is lost, turning every rail off and losing every latch. -/
  | auxLoss
  /-- INPUT_54V_GOOD (R754). 54 V becomes good after Base and the Upsett stage runs. -/
  | input54vGood
  /-- INPUT_54V_LOSS (R735). 54 V is lost after Upsett has begun, raising a Device fault and holding Base functions. -/
  | input54vLoss
  /-- SIDING (R756). Upsett completes and Siding trains bridges, tests and releases cores and enables ports. -/
  | siding
  /-- STAGE_BOUND_EXPIRY (R736). A stage's bound expires, so the module stays at the last completed stage and reports the failure. -/
  | stageBoundExpiry
  /-- PLL_LOCK_TIMEOUT (R830). A PLL fails to lock within 10 ms of step U1, failing Upsett with code 0x4. -/
  | pllLockTimeout (pll : Nat)
  /-- GETID (R768). Mailbox command GETID returns the part number, stepping, serial and mask ROM version. -/
  | getid (via : MbPath)
  /-- GETSTAGE (R768). Mailbox command GETSTAGE returns STAGESTAT, BOOTSTAT, RBSTAT and device time. -/
  | getstage (via : MbPath)
  /-- GETCAP (R768). Mailbox command GETCAP returns CAPSTAT and the fence maps. -/
  | getcap (via : MbPath)
  /-- GETMEAS (R768). Mailbox command GETMEAS returns one unsigned measurement. -/
  | getmeas (via : MbPath)
  /-- GETCERT (R768). Mailbox command GETCERT returns up to 1,000 bytes of a certificate chain. -/
  | getcert (via : MbPath)
  /-- SETEPBASE (R589). Mailbox command SETEPBASE writes the endpoint block until EPCFG is locked. -/
  | setepbase (via : MbPath)
  /-- RBCOMMIT (R750). Mailbox command RBCOMMIT advances an anti-rollback fuse counter. -/
  | rbcommit (via : MbPath)
  /-- WARMRST (R759). Mailbox command WARMRST responds and then starts a warm reset. -/
  | warmrst (via : MbPath)
  /-- GET_VERSION (R762). SPDM GET_VERSION is answered over DOE. -/
  | getVersion (data : (List Byte))
  /-- GET_CAPABILITIES (R762). SPDM GET_CAPABILITIES is answered over DOE. -/
  | getCapabilities (data : (List Byte))
  /-- NEGOTIATE_ALGORITHMS (R762). SPDM NEGOTIATE_ALGORITHMS is answered over DOE. -/
  | negotiateAlgorithms (data : (List Byte))
  /-- GET_DIGESTS (R762). SPDM GET_DIGESTS is answered over DOE. -/
  | getDigests (data : (List Byte))
  /-- GET_CERTIFICATE (R762). SPDM GET_CERTIFICATE returns part of a slot's certificate chain. -/
  | getCertificate (data : (List Byte))
  /-- CHALLENGE (R764). SPDM CHALLENGE is answered with an RSA-signed CHALLENGE_AUTH. -/
  | challenge (data : (List Byte))
  /-- GET_MEASUREMENTS (R763). SPDM GET_MEASUREMENTS returns the measurement blocks, or Busy before BORDERSEEN. -/
  | getMeasurements (data : (List Byte))
  /-- VENDOR_DEFINED_REQUEST (R765). The companion request returns the SLH-DSA signature over the previous signed response's hash. -/
  | vendorDefinedRequest (data : (List Byte))
  /-- CHUNK_SEND (R762). SPDM CHUNK_SEND carries one chunk of a large request. -/
  | chunkSend (data : (List Byte))
  /-- CHUNK_GET (R762). SPDM CHUNK_GET returns one chunk of a large response. -/
  | chunkGet (data : (List Byte))
  /-- SPDM_UNSUPPORTED (R762). An unlisted SPDM request is answered with ERROR UnsupportedRequest. -/
  | spdmUnsupported (data : (List Byte))
  /-- COMPANION_SIGNATURE_READY (R766). The SLH-DSA companion signature finishes, so the companion request can be answered. -/
  | companionSignatureReady
  /-- FLASH_ERASE (R838). FLCTL.OP 0b01 erases a 64 KiB sector of the non-running flash. -/
  | flashErase (req : Req) (addr : Nat)
  /-- FLASH_PROGRAM (R838). FLCTL.OP 0b10 programs FLBUF into a 256-byte page of the non-running flash. -/
  | flashProgram (req : Req) (addr : Nat)
  /-- FLASH_OP_COMPLETE (R838). A flash erase or program finishes and BUSY clears, with ERR set on failure. -/
  | flashOpComplete (ok : Bool)
  /-- FAULT_REPORT (R784). A detector's report reaches the Fault Hub and is captured or counted, setting pending state and interrupts. -/
  | faultReport
  /-- COLLECTOR_SILENT (R777). A collector sends nothing for 10 µs, raising a Device fault. -/
  | collectorSilent (coll : Fin 6)
  /-- AUTO_WARM_RESET (R791). WRDLY ms after DEVSTOP, with AUTOWR set, the Hub starts a warm reset. -/
  | autoWarmReset
  /-- DRAIN_TIMEOUT (R797). A party fails to stop within DRTO × 10 µs of being told to, so the Hub fences it in service. -/
  | drainTimeout (kind : Fin 3) (idx : Nat)
  /-- RECLAIM (R796). DRTO × 10 µs after a fence, the Hub takes back the fenced party's resources. -/
  | reclaim (kind : Fin 3) (idx : Nat)
  /-- RECLAIM_TIMEOUT (R800). A reclaim does not complete within 10 µs, raising a Device fault. -/
  | reclaimTimeout (kind : Fin 3) (idx : Nat)
  /-- FHFNC_GO (R814). A write of 1 to FHFNC.GO fences the named core, channel or port in service. -/
  | fhfncGo (req : Req) (kind : Fin 4) (idx : Fin 128)
  /-- FHCTL_CLRCNT (R809). A write of 1 to FHCTL.CLRCNT clears every FHCNT register. -/
  | fhctlClrcnt (req : Req)
  /-- FHFIRST_CLEAR (R787). A write of 1 to FHFIRSTk.VALID clears the capture of a class below Grave. -/
  | fhfirstClear (req : Req) (k : Fin 5)
  /-- FHCONT_CLEAR (R778). A write of 1 to a FHCONT bit clears a party's Contained state. -/
  | fhcontClear (req : Req) (mask : W32)
  /-- LOCK_TAMPER (R795). A lock bit's true and complement copies disagree, raising a Grave fault. -/
  | lockTamper (kind : Fin 5) (unit : Nat)
  /-- TLCTL_OPEN (R803). A write to TLCTL.OPEN opens the test lock, or closes it and disarms every injection point. -/
  | tlctlOpen (req : Req) (on : Bool)
  /-- TLCTL_LOCK (R803). A write of 1 to TLCTL.LOCK locks the test lock closed until reset. -/
  | tlctlLock (req : Req)
  /-- INJCTL_ARM (R805). A write of 1 to INJCTLn.ARM arms the selected injection point. -/
  | injctlArm (req : Req) (slot : SlotId)
  /-- INJCTL_DISARM (R816). A write of 1 to INJCTLn.DISARM disarms the slot's injection point. -/
  | injctlDisarm (req : Req) (slot : SlotId)
  /-- POWER_SAMPLE (R826). The 10 µs input power measurement is taken, cutting the cap point by two above 4,000 W. -/
  | powerSample (watts : Nat)
  /-- POWER_CAP_INTERVAL (R825). Every 100 µs the average input power is computed and every die's cap point adjusted. -/
  | powerCapInterval
  /-- VF_RISE_STEP (R822). A 10 µs rise step elapses and a die moves up one point toward its effective point. -/
  | vfRiseStep (die : DieId)
  /-- BRAKE_ENGAGE (R828). PWR_BRAKE_N has been low for 100 ns, so the brake limits every die to BRKPT. -/
  | brakeEngage
  /-- BRAKE_RELEASE (R828). PWR_BRAKE_N has been high for 100 ns, so the HOLD period begins. -/
  | brakeRelease
  /-- BRAKE_HOLD_EXPIRY (R828). HOLD × 10 µs after release, the brake limit lifts. -/
  | brakeHoldExpiry
  /-- THERMAL_SAMPLE (R833). Every 10 µs the sensors are read and each die's thermal point and the alert are recomputed. -/
  | thermalSample (sensors : (List (Option Nat)))
  /-- THERMAL_TRIP (R835). A die sensor reaches 115 °C, latching THERMTRIP_N, raising a Grave fault and disabling rails. -/
  | thermalTrip (sensor : Nat)
  /-- RAIL_FAULT (R817). A rail leaves its window for more than 5 µs, raising a Device fault. -/
  | railFault (rail : Nat) (cause : Nat)
  /-- CLOCK_LOSS (R831). A PLL loses lock or the link reference clock stops for 1 µs, raising a Device fault. -/
  | clockLoss (clk : Nat)
  /-- LINK_REF_CLOCK_DETECT (R46). The link reference clock is first detected after power-on and device time starts at 0. -/
  | linkRefClockDetect
  /-- SB_MAILBOX_FRAME (R854). A sideband frame of type 0x01 carries a management mailbox command. -/
  | sbMailboxFrame (data : (List Byte))
  /-- SB_REGISTER_READ (R855). A sideband frame of type 0x02 reads a register of blocks 8 to 10. -/
  | sbRegisterRead (data : (List Byte))
  /-- SB_REGISTER_WRITE (R855). A sideband frame of type 0x03 writes a register of blocks 8 to 10. -/
  | sbRegisterWrite (data : (List Byte))
  /-- SB_RESERVED_FRAME (R854). A sideband frame of a reserved type is answered with STATUS 0x01. -/
  | sbReservedFrame (data : (List Byte))
  /-- SB_RESPONSE_READ (R856). A sideband read transfer returns the response once, or a busy, PEC or repeat status. -/
  | sbResponseRead
  /-- SETDASA (R853). An I3C controller assigns the sideband a dynamic address. -/
  | setdasa (addr : Nat)
  /-- RSTDAA (R853). An I3C controller resets the dynamic address, returning the sideband to its static address. -/
  | rstdaa
  /-- INPUT_54V_NEAR_LIMIT (R818). The 54 V input moves into the band 46 to 48 V or 58 to 60 V, and the module keeps running but raises a Notice with detector 0x4F, cause 0x06. -/
  | input54vNearLimit
  /-- LINK_REF_CLOCK_RETURN (R831). The link reference clock returns after an absence, and device time resumes counting from the value it held. -/
  | linkRefClockReturn
  /-- FLIT_BOUNDARY (R603). At each flit boundary a port's transmitter sends one flit, chosen by the precedence of LINK, management, reduction, scheduled and unscheduled traffic and the UMIN rule, which also drains receive buffers toward XON. -/
  | flitBoundary (port : PortId)
  /-- CXL_LINK_UP (R387). A CXL root port finishes training with its attached expander and reports up, with GEN, WIDTH and the mapped capacity CAPG. -/
  | cxlLinkUp (port : RootId) (gen : Fin 4) (width : Fin 4) (capg : Fin 4096)
  /-- HOST_LINK_UP (R687). The PCIe host link completes training at some rate and width, and HIFSTAT reports GEN, WIDTH and FLIT. -/
  | hostLinkUp (gen : Fin 4) (width : Fin 4) (flit : Bool)
  /-- PERST_DEASSERT (R850). PERST# goes high after its 100 ns filter, ending the conventional reset so that the host link retrains. -/
  | perstDeassert
  /-- CORE_TEST_REQUEST (R407). With the test lock open and no job loaded, a test request for a core makes the sequencer copy its local store into the sequencer area, test it and copy it back. -/
  | coreTestRequest (core : CoreId)
deriving DecidableEq, Repr

end Sys2Proof
end

