-- ==== Sys2Proof/Decode.lean ====
section
/-! DEFINITION. Sys2Proof/Decode.lean: commands from the bits of the command table. The table gives no row any bits: commands
reach the module as register accesses, pins, flits and events, and the command instructions of the cores are decoded
where they issue (R303 to R362). -/

namespace Sys2Proof

/-- The command that a word spells by the table's bits: none. Log entry 54, DESIGN CHOICE. -/
def decodeTableWord (_nbits _w : Nat) : Option Instr := none

end Sys2Proof
end

