-- ==== Sys2Proof/Config.lean ====
section
/-! DEFINITION. Sys2Proof/Config.lean: the free values: constants without a body, which stand for every value the spec
leaves open. Nothing can be proved of what they are. -/

namespace Sys2Proof

/-- A value the spec leaves unspecified, by the number of its use. -/
opaque Config.freeByte : Nat → Byte
opaque Config.freeWord : Nat → W32
opaque Config.freeDouble : Nat → W64
/-- An unspecified count, and a choice between two allowed behaviours. -/
opaque Config.freeNat : Nat → Nat
opaque Config.freeBool : Nat → Bool

/-- A byte of host memory as a read through the host window finds it: host memory is not part of the module (R2). -/
opaque Config.hostByte : Nat → Nat → Byte

/-- The result of a curve evaluation whose index falls one past the last segment (R220 states none), by table and
input. -/
opaque Config.curveEdge : List Byte → W32 → W32

/-- The module's identity: the serial number and the stepping code (R4, R5), by character; the mask ROM's version (R768);
the PCI-SIG vendor ID (R687). -/
opaque Config.serial : Nat → Byte
opaque Config.stepping : Nat → Byte
opaque Config.romVersion : W32
opaque Config.vendor : W16

/-- What the module's configuration space holds where only the PCI Express Base Specification says it, by offset. -/
opaque Config.cfgWord : Nat → W32

/-- The boot flashes as they were at power-on, by flash and address (R740): an image is not part of the module's spec. -/
opaque Config.flashByte : Nat → Nat → Byte
/-- Acdom's root public keys, RSA-3072 and SLH-DSA-SHA2-128s (R746), and their hashes in the fuses and in mask ROM (R738). -/
opaque Config.rsaRoot : List Byte
opaque Config.slhRoot : List Byte
opaque Config.rootFuse : List Byte
opaque Config.rootRom : List Byte
/-- The fused seed S (R751). -/
opaque Config.seed : BitVec 256
/-- The chain of a slot of a certificate area, whose place in the area the spec does not give; of a chain's device
certificate, the public key, the serial number and the stepping code (R752). -/
opaque Config.chain : List Byte → Nat → List Byte
opaque Config.certKey : List Byte → List Byte
opaque Config.certSerial : List Byte → List Byte
opaque Config.certStepping : List Byte → List Byte
/-- What the sections of an image hold, whose layout the spec does not give: a voltage/frequency entry by die and point, a
library curve table by slot, WVCFG by engine, EPBASE if there is one (R745). -/
opaque Config.vfEntry : List Byte → Nat → Nat → W32
opaque Config.libCurve : List Byte → Nat → List Byte
opaque Config.wvcfg : List Byte → Nat → W32
opaque Config.epbase : List Byte → Option W16
/-- The straps SBADDR1 and SBADDR0 (R853). -/
opaque Config.straps : BitVec 2

end Sys2Proof
end

