-- ==== Sys2Proof/Machine/RegKinds.lean ====
section
/-! DEFINITION. Sys2Proof/Machine/RegKinds.lean: the kinds of register field (R16, R17, R858) and the shapes in which
the register map is written. -/

namespace Sys2Proof.Machine

/-- A field of a register: BAR0 offset, lowest bit, width. -/
structure Fld where
  off : Nat
  lo : Nat
  w : Nat
deriving DecidableEq, Repr

/-- Access types of the register tables; W1S is split into strobes and lock bits under R858. -/
inductive Acc where
  | ro
  | rw
  | w1c
  | strobe
  | lock
  | rws
  | rwl (lockBit : Nat)
deriving DecidableEq, Repr

/-- The encodings of a field that are not reserved (R17). -/
inductive Legal where
  | any
  | range (lo hi : Nat)
  /-- A two's complement byte from −32 to 32 (R543). -/
  | loss
deriving DecidableEq, Repr

/-- One field: lowest bit, width, access, reset value, encodings. -/
structure FieldSpec where
  lo : Nat
  w : Nat
  acc : Acc
  reset : Nat
  legal : Legal
deriving DecidableEq, Repr

/-- One register, or an array of registers: offset in the block, then (stride, count) of each dimension. -/
structure RegSpec where
  name : String
  off : Nat
  dims : List (Nat × Nat)
  fields : List FieldSpec
deriving DecidableEq, Repr

/-- The kinds of block of R732. -/
inductive Block where
  | host | round | memory | training | ledger | collective | fabric | dma | faultHub | power | security | test
  | sync | region | cluster | core
deriving DecidableEq, Repr

end Sys2Proof.Machine
end

