-- ==== Sys2Proof/Machine/RegMap.lean ====
section
/-! DEFINITION. Sys2Proof/Machine/RegMap.lean: where every register of BAR0 lies (R732 and the register rules of each
chapter), the place of every field, and the register map of each block as data. -/

namespace Sys2Proof.Machine
namespace R

/-- BAR0 offsets of the blocks of R732. -/
def hostBase : Nat := 0x0
def roundBase : Nat := 0x10000
def memoryBase : Nat := 0x11000
def trainingBase : Nat := 0x12000
def ledgerBase : Nat := 0x13000
def collectiveBase : Nat := 0x14000
def fabricBase : Nat := 0x18000
def dmaBase : Nat := 0x1C000
def faultHubBase : Nat := 0x20000
def powerBase : Nat := 0x30000
def securityBase : Nat := 0x40000
def testBase : Nat := 0x50000
/-- The sync block of die `die`. -/
def syncBase (die : Nat) : Nat := 0x100000 + 0x10000 * die
/-- Region `rg` = die × 2 + region. -/
def regionBase (rg : Nat) : Nat := 0x140000 + 0x1000 * rg
/-- Cluster `cl` = die × 8 + region × 4 + cluster. -/
def clusterBase (cl : Nat) : Nat := 0x150000 + 0x100 * cl
/-- Core `c`. -/
def coreBase (c : Nat) : Nat := 0x200000 + 0x1000 * c

/-- RNDCTL (R96). -/
def RNDCTL : Nat := roundBase + 0x0
def RNDCTL_DOVSTOP : Fld := ⟨RNDCTL, 7, 1⟩
def RNDCTL_OUTMODE : Fld := ⟨RNDCTL, 5, 2⟩
def RNDCTL_SRC : Fld := ⟨RNDCTL, 4, 1⟩
def RNDCTL_CLRCNT : Fld := ⟨RNDCTL, 3, 1⟩
def RNDCTL_RUN : Fld := ⟨RNDCTL, 0, 1⟩
/-- RNDPER (R97). -/
def RNDPER : Nat := roundBase + 0x4
def RNDPER_PERIOD : Fld := ⟨RNDPER, 0, 14⟩
/-- RNDWIN (R97). -/
def RNDWIN : Nat := roundBase + 0x8
def RNDWIN_TWCNT : Fld := ⟨RNDWIN, 13, 2⟩
def RNDWIN_DLEN : Fld := ⟨RNDWIN, 0, 13⟩
/-- RNDSYNC (R98). -/
def RNDSYNC : Nat := roundBase + 0xC
def RNDSYNC_OUTLEAD : Fld := ⟨RNDSYNC, 16, 10⟩
def RNDSYNC_MISSLIM : Fld := ⟨RNDSYNC, 12, 4⟩
def RNDSYNC_GUARD : Fld := ⟨RNDSYNC, 0, 12⟩
/-- RNDSTAT (R99). -/
def RNDSTAT : Nat := roundBase + 0x10
def RNDSTAT_STATE : Fld := ⟨RNDSTAT, 30, 2⟩
def RNDSTAT_DHELD : Fld := ⟨RNDSTAT, 29, 1⟩
def RNDSTAT_CFGREF : Fld := ⟨RNDSTAT, 15, 1⟩
def RNDSTAT_BUSYREF : Fld := ⟨RNDSTAT, 14, 1⟩
def RNDSTAT_LATEOPEN : Fld := ⟨RNDSTAT, 13, 1⟩
def RNDSTAT_DOVR : Fld := ⟨RNDSTAT, 12, 1⟩
def RNDSTAT_TOVR : Fld := ⟨RNDSTAT, 11, 1⟩
def RNDSTAT_DRIFT : Fld := ⟨RNDSTAT, 10, 1⟩
def RNDSTAT_MISS : Fld := ⟨RNDSTAT, 9, 1⟩
def RNDSTAT_STRAY : Fld := ⟨RNDSTAT, 8, 1⟩
/-- DOVCNT (R100). -/
def DOVCNT : Nat := roundBase + 0x20
/-- TOVCNT (R100). -/
def TOVCNT : Nat := roundBase + 0x24
/-- SWLCNT (R100). -/
def SWLCNT : Nat := roundBase + 0x28
/-- MISSCNT (R100). -/
def MISSCNT : Nat := roundBase + 0x2C
/-- STRAYCNT (R100). -/
def STRAYCNT : Nat := roundBase + 0x30
/-- WDOGCNT (R100). -/
def WDOGCNT : Nat := roundBase + 0x34
/-- DRIFTSTAT (R101). -/
def DRIFTSTAT (d : Nat) : Nat := roundBase + 0x40 + 0x8 * d
def DRIFTSTAT_NRES (d : Nat) : Fld := ⟨DRIFTSTAT d, 24, 8⟩
def DRIFTSTAT_FIRSTID (d : Nat) : Fld := ⟨DRIFTSTAT d, 12, 12⟩
/-- DRIFTRES (R101). -/
def DRIFTRES (d : Nat) : Nat := roundBase + 0x44 + 0x8 * d
def DRIFTRES_RESIDUE (d : Nat) : Fld := ⟨DRIFTRES d, 0, 32⟩
/-- FMTFLGD (R135). -/
def FMTFLGD (c : Nat) : Nat := coreBase c + 0x100
def FMTFLGD_NANIN (c : Nat) : Fld := ⟨FMTFLGD c, 7, 1⟩
def FMTFLGD_INFIN (c : Nat) : Fld := ⟨FMTFLGD c, 6, 1⟩
def FMTFLGD_NANGEN (c : Nat) : Fld := ⟨FMTFLGD c, 5, 1⟩
def FMTFLGD_OVFNF (c : Nat) : Fld := ⟨FMTFLGD c, 4, 1⟩
def FMTFLGD_SATUR (c : Nat) : Fld := ⟨FMTFLGD c, 3, 1⟩
def FMTFLGD_MXCLAMP (c : Nat) : Fld := ⟨FMTFLGD c, 2, 1⟩
def FMTFLGD_UNDER (c : Nat) : Fld := ⟨FMTFLGD c, 1, 1⟩
def FMTFLGD_INVCVT (c : Nat) : Fld := ⟨FMTFLGD c, 0, 1⟩
/-- FMTFLGT (R135). -/
def FMTFLGT (c : Nat) : Nat := coreBase c + 0x104
def FMTFLGT_NANIN (c : Nat) : Fld := ⟨FMTFLGT c, 7, 1⟩
def FMTFLGT_INFIN (c : Nat) : Fld := ⟨FMTFLGT c, 6, 1⟩
def FMTFLGT_NANGEN (c : Nat) : Fld := ⟨FMTFLGT c, 5, 1⟩
def FMTFLGT_OVFNF (c : Nat) : Fld := ⟨FMTFLGT c, 4, 1⟩
def FMTFLGT_SATUR (c : Nat) : Fld := ⟨FMTFLGT c, 3, 1⟩
def FMTFLGT_MXCLAMP (c : Nat) : Fld := ⟨FMTFLGT c, 2, 1⟩
def FMTFLGT_UNDER (c : Nat) : Fld := ⟨FMTFLGT c, 1, 1⟩
def FMTFLGT_INVCVT (c : Nat) : Fld := ⟨FMTFLGT c, 0, 1⟩
/-- WVCTL (R200). -/
def WVCTL (c : Nat) (e : Nat) : Nat := coreBase c + 0x200 + 0x40 * e
def WVCTL_CLRCNT (c : Nat) (e : Nat) : Fld := ⟨WVCTL c e, 2, 1⟩
def WVCTL_ABORT (c : Nat) (e : Nat) : Fld := ⟨WVCTL c e, 1, 1⟩
def WVCTL_ENABLE (c : Nat) (e : Nat) : Fld := ⟨WVCTL c e, 0, 1⟩
/-- WVCFG (R201). -/
def WVCFG (c : Nat) (e : Nat) : Nat := coreBase c + 0x204 + 0x40 * e
def WVCFG_LOCK (c : Nat) (e : Nat) : Fld := ⟨WVCFG c e, 31, 1⟩
def WVCFG_RAMPN (c : Nat) (e : Nat) : Fld := ⟨WVCFG c e, 24, 4⟩
def WVCFG_RAMPT (c : Nat) (e : Nat) : Fld := ⟨WVCFG c e, 16, 8⟩
def WVCFG_DUMTHR (c : Nat) (e : Nat) : Fld := ⟨WVCFG c e, 0, 12⟩
/-- WVSTAT (R202). -/
def WVSTAT (c : Nat) (e : Nat) : Nat := coreBase c + 0x208 + 0x40 * e
def WVSTAT_STATE (c : Nat) (e : Nat) : Fld := ⟨WVSTAT c e, 30, 2⟩
def WVSTAT_PSTATE (c : Nat) (e : Nat) : Fld := ⟨WVSTAT c e, 27, 3⟩
def WVSTAT_RSTEP (c : Nat) (e : Nat) : Fld := ⟨WVSTAT c e, 23, 4⟩
def WVSTAT_INFLT (c : Nat) (e : Nat) : Fld := ⟨WVSTAT c e, 22, 1⟩
def WVSTAT_INCTX (c : Nat) (e : Nat) : Fld := ⟨WVSTAT c e, 21, 1⟩
/-- WVDISC (R203). -/
def WVDISC (c : Nat) (e : Nat) : Nat := coreBase c + 0x20C + 0x40 * e
/-- WVDUMCNT (R203). -/
def WVDUMCNT (c : Nat) (e : Nat) : Nat := coreBase c + 0x210 + 0x40 * e
/-- WVRUPCNT (R203). -/
def WVRUPCNT (c : Nat) (e : Nat) : Nat := coreBase c + 0x214 + 0x40 * e
/-- WVDBGSEL (R204). -/
def WVDBGSEL (c : Nat) : Nat := coreBase c + 0x300
def WVDBGSEL_ENG (c : Nat) : Fld := ⟨WVDBGSEL c, 16, 1⟩
def WVDBGSEL_MAT (c : Nat) : Fld := ⟨WVDBGSEL c, 8, 7⟩
def WVDBGSEL_ROW (c : Nat) : Fld := ⟨WVDBGSEL c, 0, 5⟩
/-- WVDBGDAT (R204). -/
def WVDBGDAT (c : Nat) (k : Nat) : Nat := coreBase c + 0x380 + 0x4 * k
def WVDBGDAT_WORD (c : Nat) (k : Nat) : Fld := ⟨WVDBGDAT c k, 0, 32⟩
/-- VUCTL (R249). -/
def VUCTL (c : Nat) : Nat := coreBase c + 0x400
def VUCTL_CLRCNT (c : Nat) : Fld := ⟨VUCTL c, 2, 1⟩
def VUCTL_ABORT (c : Nat) : Fld := ⟨VUCTL c, 1, 1⟩
def VUCTL_ENABLE (c : Nat) : Fld := ⟨VUCTL c, 0, 1⟩
/-- VUSTAT (R250). -/
def VUSTAT (c : Nat) : Nat := coreBase c + 0x404
def VUSTAT_STATE (c : Nat) : Fld := ⟨VUSTAT c, 30, 2⟩
def VUSTAT_INFLT (c : Nat) : Fld := ⟨VUSTAT c, 22, 1⟩
def VUSTAT_INCTX (c : Nat) : Fld := ⟨VUSTAT c, 21, 1⟩
/-- VUCRVV (R251). -/
def VUCRVV (c : Nat) : Nat := coreBase c + 0x408
def VUCRVV_VALID (c : Nat) : Fld := ⟨VUCRVV c, 1, 31⟩
/-- VUDISC (R252). -/
def VUDISC (c : Nat) : Nat := coreBase c + 0x40C
/-- VUCRVBAD (R252). -/
def VUCRVBAD (c : Nat) : Nat := coreBase c + 0x410
/-- CPCTL (R295). -/
def CPCTL (c : Nat) : Nat := coreBase c + 0x500
def CPCTL_ABORTT (c : Nat) : Fld := ⟨CPCTL c, 11, 1⟩
def CPCTL_ABORTD (c : Nat) : Fld := ⟨CPCTL c, 10, 1⟩
def CPCTL_CLRCNT (c : Nat) : Fld := ⟨CPCTL c, 9, 1⟩
def CPCTL_DBGLOCK (c : Nat) : Fld := ⟨CPCTL c, 8, 1⟩
def CPCTL_DBGEN (c : Nat) : Fld := ⟨CPCTL c, 7, 1⟩
def CPCTL_STEPT (c : Nat) : Fld := ⟨CPCTL c, 6, 1⟩
def CPCTL_STEPD (c : Nat) : Fld := ⟨CPCTL c, 5, 1⟩
def CPCTL_RESUMET (c : Nat) : Fld := ⟨CPCTL c, 4, 1⟩
def CPCTL_RESUMED (c : Nat) : Fld := ⟨CPCTL c, 3, 1⟩
def CPCTL_HALTT (c : Nat) : Fld := ⟨CPCTL c, 2, 1⟩
def CPCTL_HALTD (c : Nat) : Fld := ⟨CPCTL c, 1, 1⟩
def CPCTL_ENABLE (c : Nat) : Fld := ⟨CPCTL c, 0, 1⟩
/-- CPSTAT (R296). -/
def CPSTAT (c : Nat) : Nat := coreBase c + 0x504
def CPSTAT_STATE (c : Nat) : Fld := ⟨CPSTAT c, 30, 2⟩
def CPSTAT_HSTD (c : Nat) : Fld := ⟨CPSTAT c, 28, 2⟩
def CPSTAT_HSTT (c : Nat) : Fld := ⟨CPSTAT c, 26, 2⟩
/-- CPHALTD (R297). -/
def CPHALTD (c : Nat) : Nat := coreBase c + 0x510
def CPHALTD_CODE (c : Nat) : Fld := ⟨CPHALTD c, 24, 8⟩
def CPHALTD_SRC (c : Nat) : Fld := ⟨CPHALTD c, 21, 3⟩
def CPHALTD_TAG (c : Nat) : Fld := ⟨CPHALTD c, 0, 16⟩
/-- CPHALTT (R297). -/
def CPHALTT (c : Nat) : Nat := coreBase c + 0x514
def CPHALTT_CODE (c : Nat) : Fld := ⟨CPHALTT c, 24, 8⟩
def CPHALTT_SRC (c : Nat) : Fld := ⟨CPHALTT c, 21, 3⟩
def CPHALTT_TAG (c : Nat) : Fld := ⟨CPHALTT c, 0, 16⟩
/-- QCFG (R298). -/
def QCFG (c : Nat) (q : Nat) : Nat := coreBase c + 0x520 + 0x4 * q
def QCFG_CREDT (c : Nat) (q : Nat) : Fld := ⟨QCFG c q, 8, 7⟩
def QCFG_CREDD (c : Nat) (q : Nat) : Fld := ⟨QCFG c q, 0, 7⟩
/-- QSTAT (R298). -/
def QSTAT (c : Nat) (q : Nat) : Nat := coreBase c + 0x540 + 0x4 * q
def QSTAT_OCCT (c : Nat) (q : Nat) : Fld := ⟨QSTAT c q, 8, 7⟩
def QSTAT_OCCD (c : Nat) (q : Nat) : Fld := ⟨QSTAT c q, 0, 7⟩
/-- CQOVFD (R299). -/
def CQOVFD (c : Nat) : Nat := coreBase c + 0x560
/-- CQOVFT (R299). -/
def CQOVFT (c : Nat) : Nat := coreBase c + 0x564
/-- DTCFGD (R365). -/
def DTCFGD (c : Nat) : Nat := coreBase c + 0x600
def DTCFGD_TBASE (c : Nat) : Fld := ⟨DTCFGD c, 20, 6⟩
def DTCFGD_OCNT (c : Nat) : Fld := ⟨DTCFGD c, 9, 11⟩
def DTCFGD_LCNT (c : Nat) : Fld := ⟨DTCFGD c, 0, 9⟩
/-- DTCFGT (R365). -/
def DTCFGT (c : Nat) : Nat := coreBase c + 0x604
def DTCFGT_TBASE (c : Nat) : Fld := ⟨DTCFGT c, 20, 6⟩
def DTCFGT_OCNT (c : Nat) : Fld := ⟨DTCFGT c, 9, 11⟩
def DTCFGT_LCNT (c : Nat) : Fld := ⟨DTCFGT c, 0, 9⟩
/-- CICTL (R366). -/
def CICTL (c : Nat) : Nat := coreBase c + 0x608
def CICTL_CLRCNT (c : Nat) : Fld := ⟨CICTL c, 0, 1⟩
/-- DESCWRD (R367). -/
def DESCWRD (c : Nat) : Nat := coreBase c + 0x60C
/-- DESCWRT (R367). -/
def DESCWRT (c : Nat) : Nat := coreBase c + 0x610
/-- WENDXD (R367). -/
def WENDXD (c : Nat) : Nat := coreBase c + 0x614
/-- WENDXT (R367). -/
def WENDXT (c : Nat) : Nat := coreBase c + 0x618
/-- LSPARTD (R409). -/
def LSPARTD (c : Nat) : Nat := coreBase c + 0x700
def LSPARTD_LEN (c : Nat) : Fld := ⟨LSPARTD c, 16, 10⟩
def LSPARTD_BASE (c : Nat) : Fld := ⟨LSPARTD c, 0, 10⟩
/-- LSPARTT (R409). -/
def LSPARTT (c : Nat) : Nat := coreBase c + 0x704
def LSPARTT_LEN (c : Nat) : Fld := ⟨LSPARTT c, 16, 10⟩
def LSPARTT_BASE (c : Nat) : Fld := ⟨LSPARTT c, 0, 10⟩
/-- MQCFG (R462). -/
def MQCFG (c : Nat) : Nat := coreBase c + 0x800
def MQCFG_NMQT (c : Nat) : Fld := ⟨MQCFG c, 9, 5⟩
def MQCFG_NMQD (c : Nat) : Fld := ⟨MQCFG c, 4, 5⟩
def MQCFG_ECC (c : Nat) : Fld := ⟨MQCFG c, 0, 1⟩
/-- CQOCC (R462). -/
def CQOCC (c : Nat) : Nat := coreBase c + 0x804
def CQOCC_OCCT (c : Nat) : Fld := ⟨CQOCC c, 8, 7⟩
def CQOCC_OCCD (c : Nat) : Fld := ⟨CQOCC c, 0, 7⟩
/-- MQCTL (R463). -/
def MQCTL (c : Nat) : Nat := coreBase c + 0x808
def MQCTL_CLRCNT (c : Nat) : Fld := ⟨MQCTL c, 0, 1⟩
/-- MQDROPD (R464). -/
def MQDROPD (c : Nat) : Nat := coreBase c + 0x80C
/-- MQDROPT (R464). -/
def MQDROPT (c : Nat) : Nat := coreBase c + 0x810
/-- MQDROPN (R464). -/
def MQDROPN (c : Nat) : Nat := coreBase c + 0x814
/-- MQPOIS (R464). -/
def MQPOIS (c : Nat) : Nat := coreBase c + 0x818
/-- MQCORR (R464). -/
def MQCORR (c : Nat) : Nat := coreBase c + 0x81C
/-- MQOCC (R463). -/
def MQOCC (c : Nat) (n : Nat) : Nat := coreBase c + 0x840 + 0x4 * n
def MQOCC_OCC (c : Nat) (n : Nat) : Fld := ⟨MQOCC c n, 0, 7⟩
/-- WYCTL (R507). -/
def WYCTL (c : Nat) : Nat := coreBase c + 0x900
def WYCTL_CLRCNT (c : Nat) : Fld := ⟨WYCTL c, 31, 1⟩
def WYCTL_TKTT (c : Nat) : Fld := ⟨WYCTL c, 8, 8⟩
def WYCTL_TKTD (c : Nat) : Fld := ⟨WYCTL c, 0, 8⟩
/-- WYERRD (R507). -/
def WYERRD (c : Nat) : Nat := coreBase c + 0x904
/-- WYERRT (R507). -/
def WYERRT (c : Nat) : Nat := coreBase c + 0x908
/-- IDLCTL (R686). -/
def IDLCTL (c : Nat) : Nat := coreBase c + 0xA00
def IDLCTL_CLRT (c : Nat) : Fld := ⟨IDLCTL c, 1, 1⟩
def IDLCTL_CLRD (c : Nat) : Fld := ⟨IDLCTL c, 0, 1⟩
/-- IDLWRAP (R686). -/
def IDLWRAP (c : Nat) : Nat := coreBase c + 0xA04
def IDLWRAP_WRAPT (c : Nat) : Fld := ⟨IDLWRAP c, 8, 8⟩
def IDLWRAP_WRAPD (c : Nat) : Fld := ⟨IDLWRAP c, 0, 8⟩
/-- FBCFG (R301). -/
def FBCFG (cl : Nat) : Nat := clusterBase cl + 0x0
def FBCFG_DCNT (cl : Nat) : Fld := ⟨FBCFG cl, 0, 5⟩
/-- FBERR (R301). -/
def FBERR (cl : Nat) : Nat := clusterBase cl + 0x4
/-- SCCFG (R410). -/
def SCCFG (rg : Nat) : Nat := regionBase rg + 0x0
def SCCFG_CWAYT (rg : Nat) : Fld := ⟨SCCFG rg, 8, 5⟩
def SCCFG_CWAYD (rg : Nat) : Fld := ⟨SCCFG rg, 0, 5⟩
/-- SCCTL (R410). -/
def SCCTL (rg : Nat) : Nat := regionBase rg + 0x4
def SCCTL_CLRCNT (rg : Nat) : Fld := ⟨SCCTL rg, 3, 1⟩
def SCCTL_FLUSH (rg : Nat) : Fld := ⟨SCCTL rg, 2, 1⟩
def SCCTL_RELT (rg : Nat) : Fld := ⟨SCCTL rg, 1, 1⟩
def SCCTL_RELD (rg : Nat) : Fld := ⟨SCCTL rg, 0, 1⟩
/-- SCHIT (R411). -/
def SCHIT (rg : Nat) : Nat := regionBase rg + 0x10
/-- SCMISS (R411). -/
def SCMISS (rg : Nat) : Nat := regionBase rg + 0x14
/-- SCMERGE (R411). -/
def SCMERGE (rg : Nat) : Nat := regionBase rg + 0x18
/-- SCRETFULL (R411). -/
def SCRETFULL (rg : Nat) : Nat := regionBase rg + 0x1C
/-- MEMCTL (R412). -/
def MEMCTL : Nat := memoryBase + 0x0
def MEMCTL_REFMODE : Fld := ⟨MEMCTL, 16, 2⟩
def MEMCTL_SCRBPER : Fld := ⟨MEMCTL, 8, 8⟩
def MEMCTL_DUMP : Fld := ⟨MEMCTL, 1, 1⟩
def MEMCTL_CLRCNT : Fld := ⟨MEMCTL, 0, 1⟩
/-- MEMSTAT (R412). -/
def MEMSTAT : Nat := memoryBase + 0x4
def MEMSTAT_BUSYREF : Fld := ⟨MEMSTAT, 0, 1⟩
/-- BAR2WIN (R413). -/
def BAR2WIN : Nat := memoryBase + 0x8
def BAR2WIN_BASE : Fld := ⟨BAR2WIN, 0, 9⟩
/-- JLCTL (R413). -/
def JLCTL : Nat := memoryBase + 0xC
def JLCTL_CTX : Fld := ⟨JLCTL, 2, 1⟩
def JLCTL_UNLOAD : Fld := ⟨JLCTL, 1, 1⟩
def JLCTL_GO : Fld := ⟨JLCTL, 0, 1⟩
/-- JLSTAT (R414). -/
def JLSTAT : Nat := memoryBase + 0x10
def JLSTAT_BUSY : Fld := ⟨JLSTAT, 31, 1⟩
def JLSTAT_DONE : Fld := ⟨JLSTAT, 30, 1⟩
def JLSTAT_CTX : Fld := ⟨JLSTAT, 29, 1⟩
def JLSTAT_CODE : Fld := ⟨JLSTAT, 16, 8⟩
def JLSTAT_ITEM : Fld := ⟨JLSTAT, 0, 16⟩
/-- INWREF (R411). -/
def INWREF : Nat := memoryBase + 0x60
/-- MEMCOR (R411). -/
def MEMCOR (d : Nat) : Nat := memoryBase + 0x40 + 0x8 * d
/-- MEMUNC (R411). -/
def MEMUNC (d : Nat) : Nat := memoryBase + 0x44 + 0x8 * d
/-- HBMPD (R415). -/
def HBMPD (s : Nat) : Nat := memoryBase + 0x100 + 0x8 * s
def HBMPD_LEN (s : Nat) : Fld := ⟨HBMPD s, 16, 10⟩
def HBMPD_BASE (s : Nat) : Fld := ⟨HBMPD s, 0, 10⟩
/-- HBMPT (R415). -/
def HBMPT (s : Nat) : Nat := memoryBase + 0x104 + 0x8 * s
def HBMPT_LEN (s : Nat) : Fld := ⟨HBMPT s, 16, 10⟩
def HBMPT_BASE (s : Nat) : Fld := ⟨HBMPT s, 0, 10⟩
/-- CXLPD (R415). -/
def CXLPD (p : Nat) : Nat := memoryBase + 0x140 + 0x8 * p
def CXLPD_LEN (p : Nat) : Fld := ⟨CXLPD p, 16, 12⟩
def CXLPD_BASE (p : Nat) : Fld := ⟨CXLPD p, 0, 11⟩
/-- CXLPT (R415). -/
def CXLPT (p : Nat) : Nat := memoryBase + 0x144 + 0x8 * p
def CXLPT_LEN (p : Nat) : Fld := ⟨CXLPT p, 16, 12⟩
def CXLPT_BASE (p : Nat) : Fld := ⟨CXLPT p, 0, 11⟩
/-- CXLSTAT (R416). -/
def CXLSTAT (p : Nat) : Nat := memoryBase + 0x160 + 0x4 * p
def CXLSTAT_STATE (p : Nat) : Fld := ⟨CXLSTAT p, 30, 2⟩
def CXLSTAT_GEN (p : Nat) : Fld := ⟨CXLSTAT p, 28, 2⟩
def CXLSTAT_WIDTH (p : Nat) : Fld := ⟨CXLSTAT p, 26, 2⟩
def CXLSTAT_BUSYREF (p : Nat) : Fld := ⟨CXLSTAT p, 25, 1⟩
def CXLSTAT_CAPG (p : Nat) : Fld := ⟨CXLSTAT p, 0, 12⟩
/-- SNCTL (R459). -/
def SNCTL (die : Nat) : Nat := syncBase die + 0x0
def SNCTL_CLRCNT (die : Nat) : Fld := ⟨SNCTL die, 0, 1⟩
/-- SNTOCFG (R459). -/
def SNTOCFG (die : Nat) : Nat := syncBase die + 0x4
def SNTOCFG_WTOT (die : Nat) : Fld := ⟨SNTOCFG die, 8, 7⟩
def SNTOCFG_WTOD (die : Nat) : Fld := ⟨SNTOCFG die, 0, 7⟩
/-- SNUNDER (R460). -/
def SNUNDER (die : Nat) : Nat := syncBase die + 0x10
/-- SNOVER (R460). -/
def SNOVER (die : Nat) : Nat := syncBase die + 0x14
/-- SNSAT (R460). -/
def SNSAT (die : Nat) : Nat := syncBase die + 0x18
/-- SNBARERR (R460). -/
def SNBARERR (die : Nat) : Nat := syncBase die + 0x1C
/-- SNTOCNT (R460). -/
def SNTOCNT (die : Nat) : Nat := syncBase die + 0x20
/-- SNORPH (R460). -/
def SNORPH (die : Nat) : Nat := syncBase die + 0x24
/-- SCNTVAL (R461). -/
def SCNTVAL (die : Nat) (n : Nat) : Nat := syncBase die + 0x4000 + 0x4 * n
def SCNTVAL_VALUE (die : Nat) (n : Nat) : Fld := ⟨SCNTVAL die n, 0, 32⟩
/-- SCNTMODE (R461). -/
def SCNTMODE (die : Nat) (n : Nat) : Nat := syncBase die + 0x8000 + 0x4 * n
def SCNTMODE_OWNER (die : Nat) (n : Nat) : Fld := ⟨SCNTMODE die n, 4, 2⟩
def SCNTMODE_SATF (die : Nat) (n : Nat) : Fld := ⟨SCNTMODE die n, 3, 1⟩
def SCNTMODE_BAD (die : Nat) (n : Nat) : Fld := ⟨SCNTMODE die n, 2, 1⟩
def SCNTMODE_MODE (die : Nat) (n : Nat) : Fld := ⟨SCNTMODE die n, 0, 2⟩
/-- SCNTBASE (R461). -/
def SCNTBASE (die : Nat) (n : Nat) : Nat := syncBase die + 0xC000 + 0x4 * n
def SCNTBASE_BASE (die : Nat) (n : Nat) : Fld := ⟨SCNTBASE die n, 0, 32⟩
/-- DMACTL (R501). -/
def DMACTL (n : Nat) : Nat := dmaBase + 0x0 + 0x40 * n
def DMACTL_CLRCNT (n : Nat) : Fld := ⟨DMACTL n, 3, 1⟩
def DMACTL_GO (n : Nat) : Fld := ⟨DMACTL n, 2, 1⟩
def DMACTL_ABORT (n : Nat) : Fld := ⟨DMACTL n, 1, 1⟩
def DMACTL_ENABLE (n : Nat) : Fld := ⟨DMACTL n, 0, 1⟩
/-- DMACFG (R501). -/
def DMACFG (n : Nat) : Nat := dmaBase + 0x4 + 0x40 * n
def DMACFG_RATE (n : Nat) : Fld := ⟨DMACFG n, 24, 8⟩
def DMACFG_TICKETS (n : Nat) : Fld := ⟨DMACFG n, 16, 8⟩
def DMACFG_SCHED (n : Nat) : Fld := ⟨DMACFG n, 15, 1⟩
def DMACFG_IEERR (n : Nat) : Fld := ⟨DMACFG n, 14, 1⟩
def DMACFG_IEFULL (n : Nat) : Fld := ⟨DMACFG n, 13, 1⟩
def DMACFG_IEHALF (n : Nat) : Fld := ⟨DMACFG n, 12, 1⟩
def DMACFG_VEC (n : Nat) : Fld := ⟨DMACFG n, 0, 11⟩
/-- DMASIG (R502). -/
def DMASIG (n : Nat) : Nat := dmaBase + 0x8 + 0x40 * n
def DMASIG_SENFULL (n : Nat) : Fld := ⟨DMASIG n, 31, 1⟩
def DMASIG_SENHALF (n : Nat) : Fld := ⟨DMASIG n, 30, 1⟩
def DMASIG_SAMT (n : Nat) : Fld := ⟨DMASIG n, 16, 4⟩
def DMASIG_SCTR (n : Nat) : Fld := ⟨DMASIG n, 0, 14⟩
/-- DMASTAT (R502). -/
def DMASTAT (n : Nat) : Nat := dmaBase + 0xC + 0x40 * n
def DMASTAT_STATE (n : Nat) : Fld := ⟨DMASTAT n, 30, 2⟩
def DMASTAT_SHPEND (n : Nat) : Fld := ⟨DMASTAT n, 29, 1⟩
def DMASTAT_OWNER (n : Nat) : Fld := ⟨DMASTAT n, 27, 2⟩
def DMASTAT_ERRCODE (n : Nat) : Fld := ⟨DMASTAT n, 24, 3⟩
def DMASTAT_ERR (n : Nat) : Fld := ⟨DMASTAT n, 2, 1⟩
def DMASTAT_FULL (n : Nat) : Fld := ⟨DMASTAT n, 1, 1⟩
def DMASTAT_HALF (n : Nat) : Fld := ⟨DMASTAT n, 0, 1⟩
/-- DMASNENT (R503). -/
def DMASNENT (n : Nat) : Nat := dmaBase + 0x10 + 0x40 * n
def DMASNENT_SNENT (n : Nat) : Fld := ⟨DMASNENT n, 0, 16⟩
/-- DMAPOS (R503). -/
def DMAPOS (n : Nat) : Nat := dmaBase + 0x14 + 0x40 * n
def DMAPOS_ENTRY (n : Nat) : Fld := ⟨DMAPOS n, 16, 16⟩
def DMAPOS_ANENT (n : Nat) : Fld := ⟨DMAPOS n, 0, 16⟩
/-- DMADISC (R504). -/
def DMADISC (n : Nat) : Nat := dmaBase + 0x18 + 0x40 * n
/-- DMAERRC (R504). -/
def DMAERRC (n : Nat) : Nat := dmaBase + 0x1C + 0x40 * n
/-- ARBTKT (R505). -/
def ARBTKT : Nat := dmaBase + 0x1800
def ARBTKT_MSP : Fld := ⟨ARBTKT, 24, 8⟩
def ARBTKT_DEBUG : Fld := ⟨ARBTKT, 16, 8⟩
def ARBTKT_HOSTBAR : Fld := ⟨ARBTKT, 8, 8⟩
/-- ARBCFG (R506). -/
def ARBCFG (p : Nat) : Nat := dmaBase + 0x2000 + 0x20 * p
def ARBCFG_CLRCNT (p : Nat) : Fld := ⟨ARBCFG p, 31, 1⟩
def ARBCFG_GRANTMAX (p : Nat) : Fld := ⟨ARBCFG p, 0, 4⟩
/-- ARBSEED (R506). -/
def ARBSEED (p : Nat) : Nat := dmaBase + 0x2004 + 0x20 * p
def ARBSEED_SEED (p : Nat) : Fld := ⟨ARBSEED p, 0, 32⟩
/-- ARBGRANT (R506). -/
def ARBGRANT (p : Nat) : Nat := dmaBase + 0x2008 + 0x20 * p
/-- ARBWASTE (R506). -/
def ARBWASTE (p : Nat) : Nat := dmaBase + 0x200C + 0x20 * p
/-- ARBREVOKE (R506). -/
def ARBREVOKE (p : Nat) : Nat := dmaBase + 0x2010 + 0x20 * p
/-- STEPCTL (R541). -/
def STEPCTL : Nat := trainingBase + 0x0
def STEPCTL_CLRCNT : Fld := ⟨STEPCTL, 1, 1⟩
def STEPCTL_ENABLE : Fld := ⟨STEPCTL, 0, 1⟩
/-- STEPCFG0 (R542). -/
def STEPCFG0 : Nat := trainingBase + 0x4
def STEPCFG0_TRIGCTR : Fld := ⟨STEPCFG0, 16, 14⟩
def STEPCFG0_NOTECTR : Fld := ⟨STEPCFG0, 0, 14⟩
/-- STEPCFG1 (R542). -/
def STEPCFG1 : Nat := trainingBase + 0x8
def STEPCFG1_TRIGTHR : Fld := ⟨STEPCFG1, 16, 16⟩
def STEPCFG1_NVOTE : Fld := ⟨STEPCFG1, 0, 13⟩
/-- STEPCFG2 (R542). -/
def STEPCFG2 : Nat := trainingBase + 0xC
def STEPCFG2_VGRP : Fld := ⟨STEPCFG2, 20, 12⟩
def STEPCFG2_VTO : Fld := ⟨STEPCFG2, 12, 8⟩
def STEPCFG2_MQ : Fld := ⟨STEPCFG2, 8, 4⟩
def STEPCFG2_NOTESIG : Fld := ⟨STEPCFG2, 7, 1⟩
/-- LSCFG (R543). -/
def LSCFG : Nat := trainingBase + 0x10
def LSCFG_LSINIT : Fld := ⟨LSCFG, 24, 8⟩
def LSCFG_LSMIN : Fld := ⟨LSCFG, 16, 8⟩
def LSCFG_LSMAX : Fld := ⟨LSCFG, 8, 8⟩
/-- LSRUN (R543). -/
def LSRUN : Nat := trainingBase + 0x14
def LSRUN_RUN : Fld := ⟨LSRUN, 0, 16⟩
/-- LSSTAT (R544). -/
def LSSTAT : Nat := trainingBase + 0x18
def LSSTAT_LSE : Fld := ⟨LSSTAT, 24, 8⟩
def LSSTAT_RUNCNT : Fld := ⟨LSSTAT, 0, 16⟩
/-- STEPSTAT (R545). -/
def STEPSTAT : Nat := trainingBase + 0x1C
def STEPSTAT_STATE : Fld := ⟨STEPSTAT, 30, 2⟩
def STEPSTAT_NFACC : Fld := ⟨STEPSTAT, 29, 1⟩
def STEPSTAT_DESYNC : Fld := ⟨STEPSTAT, 28, 1⟩
def STEPSTAT_VMISS : Fld := ⟨STEPSTAT, 27, 1⟩
def STEPSTAT_LASTSKIP : Fld := ⟨STEPSTAT, 26, 1⟩
def STEPSTAT_LASTREASON : Fld := ⟨STEPSTAT, 24, 2⟩
/-- STSKIPNF (R546). -/
def STSKIPNF : Nat := trainingBase + 0x20
/-- STSKIPVS (R546). -/
def STSKIPVS : Nat := trainingBase + 0x24
/-- LSFLOOR (R546). -/
def LSFLOOR : Nat := trainingBase + 0x28
/-- NFSTRAY (R546). -/
def NFSTRAY : Nat := trainingBase + 0x2C
/-- SSWMIS (R546). -/
def SSWMIS : Nat := trainingBase + 0x30
/-- LEDCTL (R577). -/
def LEDCTL : Nat := ledgerBase + 0x0
def LEDCTL_CLRCNT : Fld := ⟨LEDCTL, 3, 1⟩
def LEDCTL_SIGNOW : Fld := ⟨LEDCTL, 2, 1⟩
def LEDCTL_RESUME : Fld := ⟨LEDCTL, 1, 1⟩
def LEDCTL_ENABLE : Fld := ⟨LEDCTL, 0, 1⟩
/-- LEDSTAT (R577). -/
def LEDSTAT : Nat := ledgerBase + 0x4
def LEDSTAT_STATE : Fld := ⟨LEDSTAT, 30, 2⟩
def LEDSTAT_OPENB : Fld := ⟨LEDSTAT, 28, 2⟩
def LEDSTAT_FORCED : Fld := ⟨LEDSTAT, 27, 1⟩
def LEDSTAT_RINGOVF : Fld := ⟨LEDSTAT, 26, 1⟩
def LEDSTAT_TAILBAD : Fld := ⟨LEDSTAT, 25, 1⟩
def LEDSTAT_OUTFULL : Fld := ⟨LEDSTAT, 24, 1⟩
def LEDSTAT_LANEOVF : Fld := ⟨LEDSTAT, 23, 1⟩
def LEDSTAT_SIGBUSY : Fld := ⟨LEDSTAT, 22, 1⟩
/-- LEDCFG0 (R578). -/
def LEDCFG0 : Nat := ledgerBase + 0x8
def LEDCFG0_BATCHMAX : Fld := ⟨LEDCFG0, 16, 13⟩
def LEDCFG0_BQ : Fld := ⟨LEDCFG0, 8, 4⟩
def LEDCFG0_HIST : Fld := ⟨LEDCFG0, 0, 8⟩
/-- LEDCFG1 (R578). -/
def LEDCFG1 : Nat := ledgerBase + 0xC
def LEDCFG1_LCBASE : Fld := ⟨LEDCFG1, 16, 14⟩
def LEDCFG1_DONEBASE : Fld := ⟨LEDCFG1, 0, 14⟩
/-- LEDCFG2 (R578). -/
def LEDCFG2 : Nat := ledgerBase + 0x10
def LEDCFG2_SLOTM1 : Fld := ⟨LEDCFG2, 24, 8⟩
def LEDCFG2_SIGPER : Fld := ⟨LEDCFG2, 0, 14⟩
/-- LEDCFG3 (R578). -/
def LEDCFG3 : Nat := ledgerBase + 0x14
def LEDCFG3_VEC : Fld := ⟨LEDCFG3, 3, 11⟩
def LEDCFG3_IESIG : Fld := ⟨LEDCFG3, 2, 1⟩
def LEDCFG3_IEBLK : Fld := ⟨LEDCFG3, 1, 1⟩
def LEDCFG3_IEREC : Fld := ⟨LEDCFG3, 0, 1⟩
/-- LEDREC (R579). -/
def LEDREC : Nat := ledgerBase + 0x20
/-- LEDLATE (R579). -/
def LEDLATE : Nat := ledgerBase + 0x24
/-- LEDSPILL (R579). -/
def LEDSPILL : Nat := ledgerBase + 0x28
/-- LEDDEFER (R579). -/
def LEDDEFER : Nat := ledgerBase + 0x2C
/-- LEDFORCE (R579). -/
def LEDFORCE : Nat := ledgerBase + 0x30
/-- LEDSIGCNT (R579). -/
def LEDSIGCNT : Nat := ledgerBase + 0x34
/-- LEDSIGSKIP (R579). -/
def LEDSIGSKIP : Nat := ledgerBase + 0x38
/-- EPCFG (R626). -/
def EPCFG : Nat := fabricBase + 0x0
def EPCFG_LOCK : Fld := ⟨EPCFG, 31, 1⟩
def EPCFG_VALID : Fld := ⟨EPCFG, 30, 1⟩
def EPCFG_EPBASE : Fld := ⟨EPCFG, 0, 12⟩
/-- RTCTL (R626). -/
def RTCTL : Nat := fabricBase + 0x4
def RTCTL_CLRCNT : Fld := ⟨RTCTL, 3, 1⟩
def RTCTL_ARM : Fld := ⟨RTCTL, 2, 1⟩
def RTCTL_IOD : Fld := ⟨RTCTL, 1, 1⟩
/-- RTSTAT (R626). -/
def RTSTAT : Nat := fabricBase + 0x8
def RTSTAT_CUR : Fld := ⟨RTSTAT, 31, 1⟩
def RTSTAT_ARMED : Fld := ⟨RTSTAT, 30, 1⟩
def RTSTAT_OVERLAP : Fld := ⟨RTSTAT, 29, 1⟩
def RTSTAT_BUSYREF : Fld := ⟨RTSTAT, 28, 1⟩
/-- RTSEL (R627). -/
def RTSEL : Nat := fabricBase + 0xC
def RTSEL_TBL : Fld := ⟨RTSEL, 31, 1⟩
def RTSEL_KIND : Fld := ⟨RTSEL, 30, 1⟩
def RTSEL_INDEX : Fld := ⟨RTSEL, 0, 20⟩
/-- RTDATA (R627). -/
def RTDATA : Nat := fabricBase + 0x10
def RTDATA_ENTRY : Fld := ⟨RTDATA, 0, 16⟩
/-- RMTCFG (R627). -/
def RMTCFG : Nat := fabricBase + 0x14
def RMTCFG_RMTTO : Fld := ⟨RMTCFG, 0, 16⟩
/-- RTMISS (R629). -/
def RTMISS : Nat := fabricBase + 0x20
/-- RTDOWN (R629). -/
def RTDOWN : Nat := fabricBase + 0x24
/-- EPSTALE (R629). -/
def EPSTALE : Nat := fabricBase + 0x28
/-- BADFLIT (R629). -/
def BADFLIT : Nat := fabricBase + 0x2C
/-- RSPLATE (R629). -/
def RSPLATE : Nat := fabricBase + 0x30
/-- SVIOLM (R629). -/
def SVIOLM : Nat := fabricBase + 0x34
/-- LNKCTL (R630). -/
def LNKCTL (n : Nat) : Nat := fabricBase + 0x1000 + 0x40 * n
def LNKCTL_UMIN (n : Nat) : Fld := ⟨LNKCTL n, 8, 8⟩
def LNKCTL_CLRCNT (n : Nat) : Fld := ⟨LNKCTL n, 4, 1⟩
def LNKCTL_RETRAIN (n : Nat) : Fld := ⟨LNKCTL n, 3, 1⟩
def LNKCTL_GENMAX (n : Nat) : Fld := ⟨LNKCTL n, 1, 2⟩
def LNKCTL_ENABLE (n : Nat) : Fld := ⟨LNKCTL n, 0, 1⟩
/-- LNKSTAT (R630). -/
def LNKSTAT (n : Nat) : Nat := fabricBase + 0x1004 + 0x40 * n
def LNKSTAT_STATE (n : Nat) : Fld := ⟨LNKSTAT n, 28, 4⟩
def LNKSTAT_GEN (n : Nat) : Fld := ⟨LNKSTAT n, 26, 2⟩
def LNKSTAT_POLINV (n : Nat) : Fld := ⟨LNKSTAT n, 22, 4⟩
def LNKSTAT_LREV (n : Nat) : Fld := ⟨LNKSTAT n, 21, 1⟩
def LNKSTAT_BUSYREF (n : Nat) : Fld := ⟨LNKSTAT n, 20, 1⟩
def LNKSTAT_XOFFIN (n : Nat) : Fld := ⟨LNKSTAT n, 16, 4⟩
def LNKSTAT_FAILOVER (n : Nat) : Fld := ⟨LNKSTAT n, 15, 1⟩
/-- LNKPEER (R630). -/
def LNKPEER (n : Nat) : Nat := fabricBase + 0x1008 + 0x40 * n
def LNKPEER_VALID (n : Nat) : Fld := ⟨LNKPEER n, 31, 1⟩
def LNKPEER_PEERBLK (n : Nat) : Fld := ⟨LNKPEER n, 16, 12⟩
def LNKPEER_PEERPORT (n : Nat) : Fld := ⟨LNKPEER n, 0, 5⟩
/-- LNKFC0 (R630). -/
def LNKFC0 (n : Nat) : Nat := fabricBase + 0x100C + 0x40 * n
def LNKFC0_XOFFTH (n : Nat) : Fld := ⟨LNKFC0 n, 16, 10⟩
def LNKFC0_XONTH (n : Nat) : Fld := ⟨LNKFC0 n, 0, 10⟩
/-- LNKFC1 (R630). -/
def LNKFC1 (n : Nat) : Nat := fabricBase + 0x1010 + 0x40 * n
def LNKFC1_XOFFTH (n : Nat) : Fld := ⟨LNKFC1 n, 16, 10⟩
def LNKFC1_XONTH (n : Nat) : Fld := ⟨LNKFC1 n, 0, 10⟩
/-- LNKFC2 (R630). -/
def LNKFC2 (n : Nat) : Nat := fabricBase + 0x1014 + 0x40 * n
def LNKFC2_XOFFTH (n : Nat) : Fld := ⟨LNKFC2 n, 16, 10⟩
def LNKFC2_XONTH (n : Nat) : Fld := ⟨LNKFC2 n, 0, 10⟩
/-- LNKFC3 (R630). -/
def LNKFC3 (n : Nat) : Nat := fabricBase + 0x1018 + 0x40 * n
def LNKFC3_XOFFTH (n : Nat) : Fld := ⟨LNKFC3 n, 16, 10⟩
def LNKFC3_XONTH (n : Nat) : Fld := ⟨LNKFC3 n, 0, 10⟩
/-- LNKRPL (R630). -/
def LNKRPL (n : Nat) : Nat := fabricBase + 0x101C + 0x40 * n
def LNKRPL_UNCLIM (n : Nat) : Fld := ⟨LNKRPL n, 24, 8⟩
def LNKRPL_RPRET (n : Nat) : Fld := ⟨LNKRPL n, 0, 12⟩
/-- FECCOR (R631). -/
def FECCOR (n : Nat) : Nat := fabricBase + 0x1020 + 0x40 * n
/-- FECUNC (R631). -/
def FECUNC (n : Nat) : Nat := fabricBase + 0x1024 + 0x40 * n
/-- HDRCRC (R631). -/
def HDRCRC (n : Nat) : Nat := fabricBase + 0x1028 + 0x40 * n
/-- REPLAY (R631). -/
def REPLAY (n : Nat) : Nat := fabricBase + 0x102C + 0x40 * n
/-- FCDROP (R631). -/
def FCDROP (n : Nat) : Nat := fabricBase + 0x1030 + 0x40 * n
/-- SVIOL (R631). -/
def SVIOL (n : Nat) : Nat := fabricBase + 0x1034 + 0x40 * n
/-- TRNFAIL (R631). -/
def TRNFAIL (n : Nat) : Nat := fabricBase + 0x1038 + 0x40 * n
/-- COLCTL (R681). -/
def COLCTL : Nat := collectiveBase + 0x0
def COLCTL_CLRCNT : Fld := ⟨COLCTL, 2, 1⟩
def COLCTL_ABORT : Fld := ⟨COLCTL, 1, 1⟩
def COLCTL_ENABLE : Fld := ⟨COLCTL, 0, 1⟩
/-- COLSTAT (R681). -/
def COLSTAT : Nat := collectiveBase + 0x4
def COLSTAT_STATE : Fld := ⟨COLSTAT, 30, 2⟩
def COLSTAT_SENDA : Fld := ⟨COLSTAT, 25, 5⟩
def COLSTAT_SENDB : Fld := ⟨COLSTAT, 20, 5⟩
/-- GRPSEL (R682). -/
def GRPSEL : Nat := collectiveBase + 0x8
def GRPSEL_TBL : Fld := ⟨GRPSEL, 31, 1⟩
def GRPSEL_IOD : Fld := ⟨GRPSEL, 30, 1⟩
def GRPSEL_INDEX : Fld := ⟨GRPSEL, 0, 12⟩
/-- GBSEL (R683). -/
def GBSEL : Nat := collectiveBase + 0x18
def GBSEL_INDEX : Fld := ⟨GBSEL, 0, 12⟩
/-- RETSEL (R683). -/
def RETSEL : Nat := collectiveBase + 0x1C
def RETSEL_INDEX : Fld := ⟨RETSEL, 0, 10⟩
/-- REDMISS (R684). -/
def REDMISS : Nat := collectiveBase + 0x20
/-- REDLATE (R684). -/
def REDLATE : Nat := collectiveBase + 0x24
/-- REDLATEC (R684). -/
def REDLATEC : Nat := collectiveBase + 0x28
/-- REDEARLY (R684). -/
def REDEARLY : Nat := collectiveBase + 0x2C
/-- REDDUP (R684). -/
def REDDUP : Nat := collectiveBase + 0x30
/-- REDSLOTW (R684). -/
def REDSLOTW : Nat := collectiveBase + 0x34
/-- REDSHORT (R684). -/
def REDSHORT : Nat := collectiveBase + 0x38
/-- REDEMPTY (R684). -/
def REDEMPTY : Nat := collectiveBase + 0x3C
/-- RETDONE (R684). -/
def RETDONE : Nat := collectiveBase + 0x40
/-- RETSTALE (R684). -/
def RETSTALE : Nat := collectiveBase + 0x44
/-- COLDISC (R684). -/
def COLDISC : Nat := collectiveBase + 0x48
/-- GRPDATA (R682). -/
def GRPDATA (w : Nat) : Nat := collectiveBase + 0xC + 0x4 * w
def GRPDATA_WORD (w : Nat) : Fld := ⟨GRPDATA w, 0, 32⟩
/-- HIFSTAT (R727). -/
def HIFSTAT : Nat := hostBase + 0x0
def HIFSTAT_GEN : Fld := ⟨HIFSTAT, 30, 2⟩
def HIFSTAT_WIDTH : Fld := ⟨HIFSTAT, 28, 2⟩
def HIFSTAT_FLIT : Fld := ⟨HIFSTAT, 27, 1⟩
def HIFSTAT_BME : Fld := ⟨HIFSTAT, 26, 1⟩
def HIFSTAT_D3 : Fld := ⟨HIFSTAT, 25, 1⟩
/-- UPDSTB (R728). -/
def UPDSTB : Nat := hostBase + 0x10
def UPDSTB_ARM : Fld := ⟨UPDSTB, 16, 16⟩
def UPDSTB_FIRE : Fld := ⟨UPDSTB, 0, 16⟩
/-- UPDSTAT (R728). -/
def UPDSTAT : Nat := hostBase + 0x14
def UPDSTAT_ARMED : Fld := ⟨UPDSTAT, 16, 16⟩
def UPDSTAT_PEND : Fld := ⟨UPDSTAT, 0, 16⟩
/-- UPDREF (R728). -/
def UPDREF : Nat := hostBase + 0x18
def UPDREF_REF : Fld := ⟨UPDREF, 0, 16⟩
/-- REGCTL (R729). -/
def REGCTL : Nat := hostBase + 0x20
def REGCTL_CLRCNT : Fld := ⟨REGCTL, 0, 1⟩
/-- REGTO (R729). -/
def REGTO : Nat := hostBase + 0x24
/-- REGERRC (R729). -/
def REGERRC : Nat := hostBase + 0x28
/-- LOCKREF (R729). -/
def LOCKREF : Nat := hostBase + 0x2C
/-- REGFIRST (R730). -/
def REGFIRST : Nat := hostBase + 0x30
def REGFIRST_VALID : Fld := ⟨REGFIRST, 31, 1⟩
def REGFIRST_CAUSE : Fld := ⟨REGFIRST, 28, 3⟩
def REGFIRST_REQ : Fld := ⟨REGFIRST, 26, 2⟩
def REGFIRST_OFFSET : Fld := ⟨REGFIRST, 0, 26⟩
/-- UPDMAP (R731). -/
def UPDMAP (n : Nat) : Nat := hostBase + 0x100 + 0x4 * n
/-- STAGESTAT (R769). -/
def STAGESTAT : Nat := securityBase + 0x0
def STAGESTAT_STAGE : Fld := ⟨STAGESTAT, 29, 3⟩
def STAGESTAT_BORDERSEEN : Fld := ⟨STAGESTAT, 28, 1⟩
def STAGESTAT_FAIL : Fld := ⟨STAGESTAT, 27, 1⟩
def STAGESTAT_FAILCODE : Fld := ⟨STAGESTAT, 23, 4⟩
/-- BOOTSTAT (R769). -/
def BOOTSTAT : Nat := securityBase + 0x4
def BOOTSTAT_SLOT : Fld := ⟨BOOTSTAT, 31, 1⟩
def BOOTSTAT_FALLBACK : Fld := ⟨BOOTSTAT, 30, 1⟩
def BOOTSTAT_ARES : Fld := ⟨BOOTSTAT, 28, 2⟩
def BOOTSTAT_BRES : Fld := ⟨BOOTSTAT, 26, 2⟩
def BOOTSTAT_PIN : Fld := ⟨BOOTSTAT, 25, 1⟩
def BOOTSTAT_SVN : Fld := ⟨BOOTSTAT, 18, 7⟩
def BOOTSTAT_KGEN : Fld := ⟨BOOTSTAT, 11, 7⟩
def BOOTSTAT_DBGPOL : Fld := ⟨BOOTSTAT, 10, 1⟩
/-- BOOTCTL (R770). -/
def BOOTCTL : Nat := securityBase + 0x8
def BOOTCTL_PREF : Fld := ⟨BOOTCTL, 0, 2⟩
/-- RBSTAT (R770). -/
def RBSTAT : Nat := securityBase + 0xC
def RBSTAT_FWCNT : Fld := ⟨RBSTAT, 25, 7⟩
def RBSTAT_KGCNT : Fld := ⟨RBSTAT, 18, 7⟩
/-- CAPSTAT (R770). -/
def CAPSTAT : Nat := securityBase + 0x10
def CAPSTAT_NCORE : Fld := ⟨CAPSTAT, 24, 8⟩
def CAPSTAT_NFLS : Fld := ⟨CAPSTAT, 16, 8⟩
def CAPSTAT_NFLG : Fld := ⟨CAPSTAT, 8, 8⟩
def CAPSTAT_NFSV : Fld := ⟨CAPSTAT, 0, 8⟩
/-- MBCMD (R772). -/
def MBCMD : Nat := securityBase + 0x100
def MBCMD_OP : Fld := ⟨MBCMD, 24, 8⟩
def MBCMD_LEN : Fld := ⟨MBCMD, 0, 11⟩
/-- MBSTAT (R772). -/
def MBSTAT : Nat := securityBase + 0x104
def MBSTAT_BUSY : Fld := ⟨MBSTAT, 31, 1⟩
def MBSTAT_DONE : Fld := ⟨MBSTAT, 30, 1⟩
def MBSTAT_STATUS : Fld := ⟨MBSTAT, 16, 8⟩
def MBSTAT_RLEN : Fld := ⟨MBSTAT, 0, 11⟩
/-- FENCE (R771). -/
def FENCE (n : Nat) : Nat := securityBase + 0x20 + 0x4 * n
def FENCE_MAP (n : Nat) : Fld := ⟨FENCE n, 0, 32⟩
/-- MBDATA (R772). -/
def MBDATA (w : Nat) : Nat := securityBase + 0x1000 + 0x4 * w
/-- FHCTL (R809). -/
def FHCTL : Nat := faultHubBase + 0x0
def FHCTL_CLRCNT : Fld := ⟨FHCTL, 0, 1⟩
/-- FHCFG (R809). -/
def FHCFG : Nat := faultHubBase + 0x4
def FHCFG_DRTO : Fld := ⟨FHCFG, 20, 12⟩
def FHCFG_WRDLY : Fld := ⟨FHCFG, 12, 8⟩
def FHCFG_AUTOWR : Fld := ⟨FHCFG, 11, 1⟩
def FHCFG_FLTCLS : Fld := ⟨FHCFG, 8, 3⟩
def FHCFG_IE : Fld := ⟨FHCFG, 0, 5⟩
/-- FHVEC (R810). -/
def FHVEC : Nat := faultHubBase + 0x8
def FHVEC_VEC : Fld := ⟨FHVEC, 0, 11⟩
/-- FHPEND (R810). -/
def FHPEND : Nat := faultHubBase + 0xC
def FHPEND_DEVICE : Fld := ⟨FHPEND, 3, 1⟩
def FHPEND_GRAVE : Fld := ⟨FHPEND, 4, 1⟩
def FHPEND_CONT : Fld := ⟨FHPEND, 2, 1⟩
def FHPEND_NOTICE : Fld := ⟨FHPEND, 0, 1⟩
def FHPEND_CORR : Fld := ⟨FHPEND, 1, 1⟩
/-- FHCONT (R811). -/
def FHCONT : Nat := faultHubBase + 0x10
def FHCONT_CXL : Fld := ⟨FHCONT, 28, 4⟩
def FHCONT_PORT : Fld := ⟨FHCONT, 4, 24⟩
def FHCONT_RIN : Fld := ⟨FHCONT, 3, 1⟩
def FHCONT_HOST : Fld := ⟨FHCONT, 2, 1⟩
def FHCONT_CTXT : Fld := ⟨FHCONT, 1, 1⟩
def FHCONT_CTXD : Fld := ⟨FHCONT, 0, 1⟩
/-- FHSTAT (R810). -/
def FHSTAT : Nat := faultHubBase + 0x14
def FHSTAT_STATE : Fld := ⟨FHSTAT, 30, 2⟩
def FHSTAT_WRCNT : Fld := ⟨FHSTAT, 28, 2⟩
def FHSTAT_SILENT : Fld := ⟨FHSTAT, 0, 6⟩
/-- FHFNC (R814). -/
def FHFNC : Nat := faultHubBase + 0x300
def FHFNC_KIND : Fld := ⟨FHFNC, 30, 2⟩
def FHFNC_GO : Fld := ⟨FHFNC, 29, 1⟩
def FHFNC_INDEX : Fld := ⟨FHFNC, 0, 7⟩
/-- FHFIRST (R812). -/
def FHFIRST (k : Nat) : Nat := faultHubBase + 0x100 + 0x10 * k
def FHFIRST_VALID (k : Nat) : Fld := ⟨FHFIRST k, 31, 1⟩
def FHFIRST_MORE (k : Nat) : Fld := ⟨FHFIRST k, 30, 1⟩
def FHFIRST_INJ (k : Nat) : Fld := ⟨FHFIRST k, 29, 1⟩
def FHFIRST_PARTY (k : Nat) : Fld := ⟨FHFIRST k, 26, 3⟩
def FHFIRST_ACC (k : Nat) : Fld := ⟨FHFIRST k, 22, 4⟩
def FHFIRST_COLL (k : Nat) : Fld := ⟨FHFIRST k, 19, 3⟩
/-- FHSRC (R812). -/
def FHSRC (k : Nat) : Nat := faultHubBase + 0x104 + 0x10 * k
def FHSRC_SRC (k : Nat) : Fld := ⟨FHSRC k, 0, 24⟩
/-- FHMST (R812). -/
def FHMST (k : Nat) : Nat := faultHubBase + 0x108 + 0x10 * k
def FHMST_PIDX (k : Nat) : Fld := ⟨FHMST k, 20, 8⟩
def FHMST_MASTER (k : Nat) : Fld := ⟨FHMST k, 0, 20⟩
/-- FHCNT (R813). -/
def FHCNT (c : Nat) (k : Nat) : Nat := faultHubBase + 0x200 + 0x20 * c + 0x4 * k
/-- TLCTL (R816). -/
def TLCTL : Nat := testBase + 0x0
def TLCTL_LOCK : Fld := ⟨TLCTL, 31, 1⟩
def TLCTL_OPEN : Fld := ⟨TLCTL, 0, 1⟩
/-- INJSEL (R816). -/
def INJSEL (n : Nat) : Nat := testBase + 0x100 + 0x10 * n
def INJSEL_DET (n : Nat) : Fld := ⟨INJSEL n, 24, 8⟩
def INJSEL_UNIT (n : Nat) : Fld := ⟨INJSEL n, 16, 8⟩
def INJSEL_CAUSE (n : Nat) : Fld := ⟨INJSEL n, 8, 8⟩
def INJSEL_MATCH (n : Nat) : Fld := ⟨INJSEL n, 1, 1⟩
/-- INJCTL (R816). -/
def INJCTL (n : Nat) : Nat := testBase + 0x104 + 0x10 * n
def INJCTL_DISARM (n : Nat) : Fld := ⟨INJCTL n, 1, 1⟩
def INJCTL_ARM (n : Nat) : Fld := ⟨INJCTL n, 0, 1⟩
/-- INJSTAT (R816). -/
def INJSTAT (n : Nat) : Nat := testBase + 0x108 + 0x10 * n
def INJSTAT_ARMED (n : Nat) : Fld := ⟨INJSTAT n, 31, 1⟩
def INJSTAT_FIRED (n : Nat) : Fld := ⟨INJSTAT n, 30, 1⟩
def INJSTAT_REJ (n : Nat) : Fld := ⟨INJSTAT n, 29, 1⟩
/-- PCCFG (R839). -/
def PCCFG : Nat := powerBase + 0x0
def PCCFG_CAP : Fld := ⟨PCCFG, 0, 16⟩
/-- PBRKCFG (R839). -/
def PBRKCFG : Nat := powerBase + 0x4
def PBRKCFG_HOLD : Fld := ⟨PBRKCFG, 8, 8⟩
def PBRKCFG_BRKPT : Fld := ⟨PBRKCFG, 0, 4⟩
/-- PWRSTAT (R839). -/
def PWRSTAT : Nat := powerBase + 0x8
def PWRSTAT_BRAKE : Fld := ⟨PWRSTAT, 31, 1⟩
def PWRSTAT_OVER : Fld := ⟨PWRSTAT, 30, 1⟩
def PWRSTAT_PIN : Fld := ⟨PWRSTAT, 0, 16⟩
/-- VFSTAT (R839). -/
def VFSTAT (d : Nat) : Nat := powerBase + 0x10 + 0x4 * d
def VFSTAT_PT (d : Nat) : Fld := ⟨VFSTAT d, 28, 4⟩
def VFSTAT_REQ (d : Nat) : Fld := ⟨VFSTAT d, 24, 4⟩
def VFSTAT_CAUSE (d : Nat) : Fld := ⟨VFSTAT d, 22, 2⟩
def VFSTAT_FREQ (d : Nat) : Fld := ⟨VFSTAT d, 0, 16⟩
/-- THCFG (R839). -/
def THCFG : Nat := powerBase + 0x20
def THCFG_TMAX : Fld := ⟨THCFG, 24, 8⟩
def THCFG_TALERT : Fld := ⟨THCFG, 16, 8⟩
def THCFG_TTHR : Fld := ⟨THCFG, 8, 8⟩
/-- THSTAT (R839). -/
def THSTAT : Nat := powerBase + 0x24
def THSTAT_TPEAK : Fld := ⟨THSTAT, 24, 8⟩
def THSTAT_TSRC : Fld := ⟨THSTAT, 16, 8⟩
def THSTAT_THROT : Fld := ⟨THSTAT, 1, 1⟩
def THSTAT_ALERT : Fld := ⟨THSTAT, 0, 1⟩
/-- FLCTL (R839). -/
def FLCTL : Nat := powerBase + 0x30
def FLCTL_OP : Fld := ⟨FLCTL, 30, 2⟩
def FLCTL_ADDR : Fld := ⟨FLCTL, 0, 27⟩
/-- FLSTAT (R839). -/
def FLSTAT : Nat := powerBase + 0x34
def FLSTAT_BUSY : Fld := ⟨FLSTAT, 31, 1⟩
def FLSTAT_REF : Fld := ⟨FLSTAT, 30, 1⟩
def FLSTAT_ERR : Fld := ⟨FLSTAT, 29, 1⟩
def FLSTAT_SLOT : Fld := ⟨FLSTAT, 0, 1⟩
/-- FLBUF (R838). -/
def FLBUF (w : Nat) : Nat := powerBase + 0x1000 + 0x4 * w

end R

/-- The registers of the round block as the spec's tables list them. Log entry 99, DEDUCED. -/
def map_round0 : List RegSpec := [
  ⟨"RNDCTL", 0x0, [], [⟨7, 1, .rw, 0, .any⟩, ⟨5, 2, .rw, 0, (.range 0 2)⟩, ⟨4, 1, .rw, 0, .any⟩, ⟨3, 1, .strobe, 0, .any⟩, ⟨0, 1, .rw, 0, .any⟩]⟩,
  ⟨"RNDPER", 0x4, [], [⟨0, 14, .rws, 1000, (.range 100 10000)⟩]⟩,
  ⟨"RNDWIN", 0x8, [], [⟨13, 2, .rws, 0, .any⟩, ⟨0, 13, .rws, 0, (.range 0 5000)⟩]⟩,
  ⟨"RNDSYNC", 0xC, [], [⟨16, 10, .rw, 0, .any⟩, ⟨12, 4, .rw, 8, .any⟩, ⟨0, 12, .rw, 1000, .any⟩]⟩,
  ⟨"RNDSTAT", 0x10, [], [⟨30, 2, .ro, 0, .any⟩, ⟨29, 1, .ro, 0, .any⟩, ⟨15, 1, .w1c, 0, .any⟩, ⟨14, 1, .w1c, 0, .any⟩, ⟨13, 1, .w1c, 0, .any⟩, ⟨12, 1, .w1c, 0, .any⟩, ⟨11, 1, .w1c, 0, .any⟩, ⟨10, 1, .w1c, 0, .any⟩, ⟨9, 1, .w1c, 0, .any⟩, ⟨8, 1, .w1c, 0, .any⟩]⟩,
  ⟨"DOVCNT", 0x20, [], [⟨0, 32, .ro, 0, .any⟩]⟩,
  ⟨"TOVCNT", 0x24, [], [⟨0, 32, .ro, 0, .any⟩]⟩,
  ⟨"SWLCNT", 0x28, [], [⟨0, 32, .ro, 0, .any⟩]⟩,
  ⟨"MISSCNT", 0x2C, [], [⟨0, 32, .ro, 0, .any⟩]⟩,
  ⟨"STRAYCNT", 0x30, [], [⟨0, 32, .ro, 0, .any⟩]⟩]

def map_round1 : List RegSpec := [
  ⟨"WDOGCNT", 0x34, [], [⟨0, 32, .ro, 0, .any⟩]⟩,
  ⟨"DRIFTSTAT", 0x40, [(0x8, 4)], [⟨24, 8, .ro, 0, .any⟩, ⟨12, 12, .ro, 0, .any⟩]⟩,
  ⟨"DRIFTRES", 0x44, [(0x8, 4)], [⟨0, 32, .ro, 0, .any⟩]⟩]

def map_round : List RegSpec := map_round0 ++ map_round1

/-- The registers of the core block as the spec's tables list them. -/
def map_core0 : List RegSpec := [
  ⟨"FMTFLGD", 0x100, [], [⟨7, 1, .w1c, 0, .any⟩, ⟨6, 1, .w1c, 0, .any⟩, ⟨5, 1, .w1c, 0, .any⟩, ⟨4, 1, .w1c, 0, .any⟩, ⟨3, 1, .w1c, 0, .any⟩, ⟨2, 1, .w1c, 0, .any⟩, ⟨1, 1, .w1c, 0, .any⟩, ⟨0, 1, .w1c, 0, .any⟩]⟩,
  ⟨"FMTFLGT", 0x104, [], [⟨7, 1, .w1c, 0, .any⟩, ⟨6, 1, .w1c, 0, .any⟩, ⟨5, 1, .w1c, 0, .any⟩, ⟨4, 1, .w1c, 0, .any⟩, ⟨3, 1, .w1c, 0, .any⟩, ⟨2, 1, .w1c, 0, .any⟩, ⟨1, 1, .w1c, 0, .any⟩, ⟨0, 1, .w1c, 0, .any⟩]⟩,
  ⟨"WVCTL", 0x200, [(0x40, 2)], [⟨2, 1, .strobe, 0, .any⟩, ⟨1, 1, .strobe, 0, .any⟩, ⟨0, 1, .rw, 0, .any⟩]⟩,
  ⟨"WVCFG", 0x204, [(0x40, 2)], [⟨31, 1, .lock, 0, .any⟩, ⟨24, 4, (.rwl 31), 7, .any⟩, ⟨16, 8, (.rwl 31), 16, .any⟩, ⟨0, 12, (.rwl 31), 512, .any⟩]⟩,
  ⟨"WVSTAT", 0x208, [(0x40, 2)], [⟨30, 2, .ro, 0, .any⟩, ⟨27, 3, .ro, 3, .any⟩, ⟨23, 4, .ro, 0, .any⟩, ⟨22, 1, .ro, 0, .any⟩, ⟨21, 1, .ro, 0, .any⟩]⟩,
  ⟨"WVDISC", 0x20C, [(0x40, 2)], [⟨0, 32, .ro, 0, .any⟩]⟩,
  ⟨"WVDUMCNT", 0x210, [(0x40, 2)], [⟨0, 32, .ro, 0, .any⟩]⟩,
  ⟨"WVRUPCNT", 0x214, [(0x40, 2)], [⟨0, 32, .ro, 0, .any⟩]⟩,
  ⟨"WVDBGSEL", 0x300, [], [⟨16, 1, .rw, 0, .any⟩, ⟨8, 7, .rw, 0, (.range 0 63)⟩, ⟨0, 5, .rw, 0, .any⟩]⟩,
  ⟨"WVDBGDAT", 0x380, [(0x4, 32)], [⟨0, 32, .ro, 0, .any⟩]⟩]

def map_core1 : List RegSpec := [
  ⟨"VUCTL", 0x400, [], [⟨2, 1, .strobe, 0, .any⟩, ⟨1, 1, .strobe, 0, .any⟩, ⟨0, 1, .rw, 0, .any⟩]⟩,
  ⟨"VUSTAT", 0x404, [], [⟨30, 2, .ro, 0, .any⟩, ⟨22, 1, .ro, 0, .any⟩, ⟨21, 1, .ro, 0, .any⟩]⟩,
  ⟨"VUCRVV", 0x408, [], [⟨1, 31, .ro, 0, .any⟩]⟩,
  ⟨"VUDISC", 0x40C, [], [⟨0, 32, .ro, 0, .any⟩]⟩,
  ⟨"VUCRVBAD", 0x410, [], [⟨0, 32, .ro, 0, .any⟩]⟩,
  ⟨"CPCTL", 0x500, [], [⟨11, 1, .strobe, 0, .any⟩, ⟨10, 1, .strobe, 0, .any⟩, ⟨9, 1, .strobe, 0, .any⟩, ⟨8, 1, .lock, 0, .any⟩, ⟨7, 1, (.rwl 8), 0, .any⟩, ⟨6, 1, .strobe, 0, .any⟩, ⟨5, 1, .strobe, 0, .any⟩, ⟨4, 1, .strobe, 0, .any⟩, ⟨3, 1, .strobe, 0, .any⟩, ⟨2, 1, .strobe, 0, .any⟩, ⟨1, 1, .strobe, 0, .any⟩, ⟨0, 1, .rw, 0, .any⟩]⟩,
  ⟨"CPSTAT", 0x504, [], [⟨30, 2, .ro, 0, .any⟩, ⟨28, 2, .ro, 0, .any⟩, ⟨26, 2, .ro, 0, .any⟩]⟩,
  ⟨"CPHALTD", 0x510, [], [⟨24, 8, .ro, 0, .any⟩, ⟨21, 3, .ro, 0, .any⟩, ⟨0, 16, .ro, 0, .any⟩]⟩,
  ⟨"CPHALTT", 0x514, [], [⟨24, 8, .ro, 0, .any⟩, ⟨21, 3, .ro, 0, .any⟩, ⟨0, 16, .ro, 0, .any⟩]⟩,
  ⟨"QCFG", 0x520, [(0x4, 6)], [⟨8, 7, .rw, 0, (.range 0 64)⟩, ⟨0, 7, .rw, 0, (.range 0 64)⟩]⟩]

def map_core2 : List RegSpec := [
  ⟨"QSTAT", 0x540, [(0x4, 6)], [⟨8, 7, .ro, 0, .any⟩, ⟨0, 7, .ro, 0, .any⟩]⟩,
  ⟨"CQOVFD", 0x560, [], [⟨0, 32, .ro, 0, .any⟩]⟩,
  ⟨"CQOVFT", 0x564, [], [⟨0, 32, .ro, 0, .any⟩]⟩,
  ⟨"DTCFGD", 0x600, [], [⟨20, 6, .rw, 0, .any⟩, ⟨9, 11, .rw, 0, (.range 0 1024)⟩, ⟨0, 9, .rw, 0, (.range 0 256)⟩]⟩,
  ⟨"DTCFGT", 0x604, [], [⟨20, 6, .rw, 0, .any⟩, ⟨9, 11, .rw, 0, (.range 0 1024)⟩, ⟨0, 9, .rw, 0, (.range 0 256)⟩]⟩,
  ⟨"CICTL", 0x608, [], [⟨0, 1, .strobe, 0, .any⟩]⟩,
  ⟨"DESCWRD", 0x60C, [], [⟨0, 32, .ro, 0, .any⟩]⟩,
  ⟨"DESCWRT", 0x610, [], [⟨0, 32, .ro, 0, .any⟩]⟩,
  ⟨"WENDXD", 0x614, [], [⟨0, 32, .ro, 0, .any⟩]⟩,
  ⟨"WENDXT", 0x618, [], [⟨0, 32, .ro, 0, .any⟩]⟩]

def map_core3 : List RegSpec := [
  ⟨"LSPARTD", 0x700, [], [⟨16, 10, .rw, 0, (.range 0 768)⟩, ⟨0, 10, .rw, 0, (.range 0 767)⟩]⟩,
  ⟨"LSPARTT", 0x704, [], [⟨16, 10, .rw, 0, (.range 0 768)⟩, ⟨0, 10, .rw, 0, (.range 0 767)⟩]⟩,
  ⟨"MQCFG", 0x800, [], [⟨9, 5, .ro, 0, .any⟩, ⟨4, 5, .ro, 0, .any⟩, ⟨0, 1, .rw, 0, .any⟩]⟩,
  ⟨"CQOCC", 0x804, [], [⟨8, 7, .ro, 0, .any⟩, ⟨0, 7, .ro, 0, .any⟩]⟩,
  ⟨"MQCTL", 0x808, [], [⟨0, 1, .strobe, 0, .any⟩]⟩,
  ⟨"MQDROPD", 0x80C, [], [⟨0, 32, .ro, 0, .any⟩]⟩,
  ⟨"MQDROPT", 0x810, [], [⟨0, 32, .ro, 0, .any⟩]⟩,
  ⟨"MQDROPN", 0x814, [], [⟨0, 32, .ro, 0, .any⟩]⟩,
  ⟨"MQPOIS", 0x818, [], [⟨0, 32, .ro, 0, .any⟩]⟩,
  ⟨"MQCORR", 0x81C, [], [⟨0, 32, .ro, 0, .any⟩]⟩]

def map_core4 : List RegSpec := [
  ⟨"MQOCC", 0x840, [(0x4, 16)], [⟨0, 7, .ro, 0, .any⟩]⟩,
  ⟨"WYCTL", 0x900, [], [⟨31, 1, .strobe, 0, .any⟩, ⟨8, 8, .rw, 16, .any⟩, ⟨0, 8, .rw, 16, .any⟩]⟩,
  ⟨"WYERRD", 0x904, [], [⟨0, 32, .ro, 0, .any⟩]⟩,
  ⟨"WYERRT", 0x908, [], [⟨0, 32, .ro, 0, .any⟩]⟩,
  ⟨"IDLCTL", 0xA00, [], [⟨1, 1, .strobe, 0, .any⟩, ⟨0, 1, .strobe, 0, .any⟩]⟩,
  ⟨"IDLWRAP", 0xA04, [], [⟨8, 8, .w1c, 0, .any⟩, ⟨0, 8, .w1c, 0, .any⟩]⟩]

def map_core : List RegSpec := map_core0 ++ map_core1 ++ map_core2 ++ map_core3 ++ map_core4

/-- The registers of the cluster block as the spec's tables list them. -/
def map_cluster : List RegSpec := [
  ⟨"FBCFG", 0x0, [], [⟨0, 5, .rw, 0, (.range 0 16)⟩]⟩,
  ⟨"FBERR", 0x4, [], [⟨0, 32, .ro, 0, .any⟩]⟩]

/-- The registers of the region block as the spec's tables list them. -/
def map_region : List RegSpec := [
  ⟨"SCCFG", 0x0, [], [⟨8, 5, .rw, 0, (.range 0 16)⟩, ⟨0, 5, .rw, 0, (.range 0 16)⟩]⟩,
  ⟨"SCCTL", 0x4, [], [⟨3, 1, .strobe, 0, .any⟩, ⟨2, 1, .strobe, 0, .any⟩, ⟨1, 1, .strobe, 0, .any⟩, ⟨0, 1, .strobe, 0, .any⟩]⟩,
  ⟨"SCHIT", 0x10, [], [⟨0, 32, .ro, 0, .any⟩]⟩,
  ⟨"SCMISS", 0x14, [], [⟨0, 32, .ro, 0, .any⟩]⟩,
  ⟨"SCMERGE", 0x18, [], [⟨0, 32, .ro, 0, .any⟩]⟩,
  ⟨"SCRETFULL", 0x1C, [], [⟨0, 32, .ro, 0, .any⟩]⟩]

/-- The registers of the memory block as the spec's tables list them. -/
def map_memory0 : List RegSpec := [
  ⟨"MEMCTL", 0x0, [], [⟨16, 2, .rw, 0, (.range 0 1)⟩, ⟨8, 8, .rw, 24, .any⟩, ⟨1, 1, .rw, 0, .any⟩, ⟨0, 1, .strobe, 0, .any⟩]⟩,
  ⟨"MEMSTAT", 0x4, [], [⟨0, 1, .w1c, 0, .any⟩]⟩,
  ⟨"BAR2WIN", 0x8, [], [⟨0, 9, .rw, 0, (.range 0 383)⟩]⟩,
  ⟨"JLCTL", 0xC, [], [⟨2, 1, .rw, 0, .any⟩, ⟨1, 1, .strobe, 0, .any⟩, ⟨0, 1, .strobe, 0, .any⟩]⟩,
  ⟨"JLSTAT", 0x10, [], [⟨31, 1, .ro, 0, .any⟩, ⟨30, 1, .w1c, 0, .any⟩, ⟨29, 1, .ro, 0, .any⟩, ⟨16, 8, .ro, 0, .any⟩, ⟨0, 16, .ro, 0, .any⟩]⟩,
  ⟨"INWREF", 0x60, [], [⟨0, 32, .ro, 0, .any⟩]⟩,
  ⟨"MEMCOR", 0x40, [(0x8, 4)], [⟨0, 32, .ro, 0, .any⟩]⟩,
  ⟨"MEMUNC", 0x44, [(0x8, 4)], [⟨0, 32, .ro, 0, .any⟩]⟩,
  ⟨"HBMPD", 0x100, [(0x8, 8)], [⟨16, 10, .rw, 0, .any⟩, ⟨0, 10, .rw, 0, .any⟩]⟩,
  ⟨"HBMPT", 0x104, [(0x8, 8)], [⟨16, 10, .rw, 0, .any⟩, ⟨0, 10, .rw, 0, .any⟩]⟩]

def map_memory1 : List RegSpec := [
  ⟨"CXLPD", 0x140, [(0x8, 4)], [⟨16, 12, .rw, 0, .any⟩, ⟨0, 11, .rw, 0, .any⟩]⟩,
  ⟨"CXLPT", 0x144, [(0x8, 4)], [⟨16, 12, .rw, 0, .any⟩, ⟨0, 11, .rw, 0, .any⟩]⟩,
  ⟨"CXLSTAT", 0x160, [(0x4, 4)], [⟨30, 2, .ro, 0, .any⟩, ⟨28, 2, .ro, 0, .any⟩, ⟨26, 2, .ro, 0, .any⟩, ⟨25, 1, .w1c, 0, .any⟩, ⟨0, 12, .ro, 0, .any⟩]⟩]

def map_memory : List RegSpec := map_memory0 ++ map_memory1

/-- The registers of the sync block as the spec's tables list them. -/
def map_sync0 : List RegSpec := [
  ⟨"SNCTL", 0x0, [], [⟨0, 1, .strobe, 0, .any⟩]⟩,
  ⟨"SNTOCFG", 0x4, [], [⟨8, 7, .rw, 10, (.range 1 100)⟩, ⟨0, 7, .rw, 10, (.range 1 100)⟩]⟩,
  ⟨"SNUNDER", 0x10, [], [⟨0, 32, .ro, 0, .any⟩]⟩,
  ⟨"SNOVER", 0x14, [], [⟨0, 32, .ro, 0, .any⟩]⟩,
  ⟨"SNSAT", 0x18, [], [⟨0, 32, .ro, 0, .any⟩]⟩,
  ⟨"SNBARERR", 0x1C, [], [⟨0, 32, .ro, 0, .any⟩]⟩,
  ⟨"SNTOCNT", 0x20, [], [⟨0, 32, .ro, 0, .any⟩]⟩,
  ⟨"SNORPH", 0x24, [], [⟨0, 32, .ro, 0, .any⟩]⟩,
  ⟨"SCNTVAL", 0x4000, [(0x4, 4096)], [⟨0, 32, .rw, 0, .any⟩]⟩,
  ⟨"SCNTMODE", 0x8000, [(0x4, 4096)], [⟨4, 2, .ro, 0, .any⟩, ⟨3, 1, .w1c, 0, .any⟩, ⟨2, 1, .ro, 0, .any⟩, ⟨0, 2, .ro, 0, .any⟩]⟩]

def map_sync1 : List RegSpec := [
  ⟨"SCNTBASE", 0xC000, [(0x4, 4096)], [⟨0, 32, .ro, 0, .any⟩]⟩]

def map_sync : List RegSpec := map_sync0 ++ map_sync1

/-- The registers of the dma block as the spec's tables list them. -/
def map_dma0 : List RegSpec := [
  ⟨"DMACTL", 0x0, [(0x40, 96)], [⟨3, 1, .strobe, 0, .any⟩, ⟨2, 1, .strobe, 0, .any⟩, ⟨1, 1, .strobe, 0, .any⟩, ⟨0, 1, .rw, 0, .any⟩]⟩,
  ⟨"DMACFG", 0x4, [(0x40, 96)], [⟨24, 8, .rw, 0, .any⟩, ⟨16, 8, .rw, 16, .any⟩, ⟨15, 1, .rw, 0, .any⟩, ⟨14, 1, .rw, 0, .any⟩, ⟨13, 1, .rw, 0, .any⟩, ⟨12, 1, .rw, 0, .any⟩, ⟨0, 11, .rw, 0, .any⟩]⟩,
  ⟨"DMASIG", 0x8, [(0x40, 96)], [⟨31, 1, .rw, 0, .any⟩, ⟨30, 1, .rw, 0, .any⟩, ⟨16, 4, .rw, 0, .any⟩, ⟨0, 14, .rw, 0, .any⟩]⟩,
  ⟨"DMASTAT", 0xC, [(0x40, 96)], [⟨30, 2, .ro, 0, .any⟩, ⟨29, 1, .ro, 0, .any⟩, ⟨27, 2, .ro, 0, .any⟩, ⟨24, 3, .ro, 0, .any⟩, ⟨2, 1, .w1c, 0, .any⟩, ⟨1, 1, .w1c, 0, .any⟩, ⟨0, 1, .w1c, 0, .any⟩]⟩,
  ⟨"DMASNENT", 0x10, [(0x40, 96)], [⟨0, 16, .rw, 0, .any⟩]⟩,
  ⟨"DMAPOS", 0x14, [(0x40, 96)], [⟨16, 16, .ro, 0, .any⟩, ⟨0, 16, .ro, 0, .any⟩]⟩,
  ⟨"DMADISC", 0x18, [(0x40, 96)], [⟨0, 32, .ro, 0, .any⟩]⟩,
  ⟨"DMAERRC", 0x1C, [(0x40, 96)], [⟨0, 32, .ro, 0, .any⟩]⟩,
  ⟨"ARBTKT", 0x1800, [], [⟨24, 8, .rw, 64, .any⟩, ⟨16, 8, .rw, 8, .any⟩, ⟨8, 8, .rw, 32, .any⟩]⟩,
  ⟨"ARBCFG", 0x2000, [(0x20, 138)], [⟨31, 1, .strobe, 0, .any⟩, ⟨0, 4, .rw, 3, .any⟩]⟩]

def map_dma1 : List RegSpec := [
  ⟨"ARBSEED", 0x2004, [(0x20, 138)], [⟨0, 32, .rw, 1, .any⟩]⟩,
  ⟨"ARBGRANT", 0x2008, [(0x20, 138)], [⟨0, 32, .ro, 0, .any⟩]⟩,
  ⟨"ARBWASTE", 0x200C, [(0x20, 138)], [⟨0, 32, .ro, 0, .any⟩]⟩,
  ⟨"ARBREVOKE", 0x2010, [(0x20, 138)], [⟨0, 32, .ro, 0, .any⟩]⟩]

def map_dma : List RegSpec := map_dma0 ++ map_dma1

/-- The registers of the training block as the spec's tables list them. -/
def map_training0 : List RegSpec := [
  ⟨"STEPCTL", 0x0, [], [⟨1, 1, .strobe, 0, .any⟩, ⟨0, 1, .rw, 0, .any⟩]⟩,
  ⟨"STEPCFG0", 0x4, [], [⟨16, 14, .rw, 0, .any⟩, ⟨0, 14, .rw, 0, .any⟩]⟩,
  ⟨"STEPCFG1", 0x8, [], [⟨16, 16, .rw, 1, (.range 1 65535)⟩, ⟨0, 13, .rw, 1, (.range 1 4096)⟩]⟩,
  ⟨"STEPCFG2", 0xC, [], [⟨20, 12, .rw, 0, .any⟩, ⟨12, 8, .rw, 16, (.range 1 255)⟩, ⟨8, 4, .rw, 0, .any⟩, ⟨7, 1, .rw, 0, .any⟩]⟩,
  ⟨"LSCFG", 0x10, [], [⟨24, 8, .rw, 15, .loss⟩, ⟨16, 8, .rw, 224, .loss⟩, ⟨8, 8, .rw, 32, .loss⟩]⟩,
  ⟨"LSRUN", 0x14, [], [⟨0, 16, .rw, 2000, (.range 1 65535)⟩]⟩,
  ⟨"LSSTAT", 0x18, [], [⟨24, 8, .ro, 15, .any⟩, ⟨0, 16, .ro, 0, .any⟩]⟩,
  ⟨"STEPSTAT", 0x1C, [], [⟨30, 2, .ro, 0, .any⟩, ⟨29, 1, .ro, 0, .any⟩, ⟨28, 1, .w1c, 0, .any⟩, ⟨27, 1, .w1c, 0, .any⟩, ⟨26, 1, .ro, 0, .any⟩, ⟨24, 2, .ro, 0, .any⟩]⟩,
  ⟨"STSKIPNF", 0x20, [], [⟨0, 32, .ro, 0, .any⟩]⟩,
  ⟨"STSKIPVS", 0x24, [], [⟨0, 32, .ro, 0, .any⟩]⟩]

def map_training1 : List RegSpec := [
  ⟨"LSFLOOR", 0x28, [], [⟨0, 32, .ro, 0, .any⟩]⟩,
  ⟨"NFSTRAY", 0x2C, [], [⟨0, 32, .ro, 0, .any⟩]⟩,
  ⟨"SSWMIS", 0x30, [], [⟨0, 32, .ro, 0, .any⟩]⟩]

def map_training : List RegSpec := map_training0 ++ map_training1

/-- The registers of the ledger block as the spec's tables list them. -/
def map_ledger0 : List RegSpec := [
  ⟨"LEDCTL", 0x0, [], [⟨3, 1, .strobe, 0, .any⟩, ⟨2, 1, .strobe, 0, .any⟩, ⟨1, 1, .strobe, 0, .any⟩, ⟨0, 1, .rw, 0, .any⟩]⟩,
  ⟨"LEDSTAT", 0x4, [], [⟨30, 2, .ro, 0, .any⟩, ⟨28, 2, .ro, 0, .any⟩, ⟨27, 1, .w1c, 0, .any⟩, ⟨26, 1, .w1c, 0, .any⟩, ⟨25, 1, .w1c, 0, .any⟩, ⟨24, 1, .w1c, 0, .any⟩, ⟨23, 1, .w1c, 0, .any⟩, ⟨22, 1, .ro, 0, .any⟩]⟩,
  ⟨"LEDCFG0", 0x8, [], [⟨16, 13, .rw, 4096, (.range 1 8191)⟩, ⟨8, 4, .rw, 0, .any⟩, ⟨0, 8, .rw, 0, .any⟩]⟩,
  ⟨"LEDCFG1", 0xC, [], [⟨16, 14, .rw, 0, .any⟩, ⟨0, 14, .rw, 0, .any⟩]⟩,
  ⟨"LEDCFG2", 0x10, [], [⟨24, 8, .rw, 0, .any⟩, ⟨0, 14, .rw, 1000, (.range 250 10000)⟩]⟩,
  ⟨"LEDCFG3", 0x14, [], [⟨3, 11, .rw, 0, .any⟩, ⟨2, 1, .rw, 0, .any⟩, ⟨1, 1, .rw, 0, .any⟩, ⟨0, 1, .rw, 0, .any⟩]⟩,
  ⟨"LEDREC", 0x20, [], [⟨0, 32, .ro, 0, .any⟩]⟩,
  ⟨"LEDLATE", 0x24, [], [⟨0, 32, .ro, 0, .any⟩]⟩,
  ⟨"LEDSPILL", 0x28, [], [⟨0, 32, .ro, 0, .any⟩]⟩,
  ⟨"LEDDEFER", 0x2C, [], [⟨0, 32, .ro, 0, .any⟩]⟩]

def map_ledger1 : List RegSpec := [
  ⟨"LEDFORCE", 0x30, [], [⟨0, 32, .ro, 0, .any⟩]⟩,
  ⟨"LEDSIGCNT", 0x34, [], [⟨0, 32, .ro, 0, .any⟩]⟩,
  ⟨"LEDSIGSKIP", 0x38, [], [⟨0, 32, .ro, 0, .any⟩]⟩]

def map_ledger : List RegSpec := map_ledger0 ++ map_ledger1

/-- The registers of the fabric block as the spec's tables list them. Log entry 99, DEDUCED. -/
def map_fabric0 : List RegSpec := [
  ⟨"EPCFG", 0x0, [], [⟨31, 1, .lock, 0, .any⟩, ⟨30, 1, .ro, 0, .any⟩, ⟨0, 12, (.rwl 31), 0, .any⟩]⟩,
  ⟨"RTCTL", 0x4, [], [⟨3, 1, .strobe, 0, .any⟩, ⟨2, 1, .strobe, 0, .any⟩, ⟨1, 1, .rw, 0, .any⟩]⟩,
  ⟨"RTSTAT", 0x8, [], [⟨31, 1, .ro, 0, .any⟩, ⟨30, 1, .ro, 0, .any⟩, ⟨29, 1, .ro, 0, .any⟩, ⟨28, 1, .w1c, 0, .any⟩]⟩,
  ⟨"RTSEL", 0xC, [], [⟨31, 1, .rw, 0, .any⟩, ⟨30, 1, .rw, 0, .any⟩, ⟨0, 20, .rw, 0, .any⟩]⟩,
  ⟨"RTDATA", 0x10, [], [⟨0, 16, .rw, 0, .any⟩]⟩,
  ⟨"RMTCFG", 0x14, [], [⟨0, 16, .rw, 100, (.range 1 65535)⟩]⟩,
  ⟨"RTMISS", 0x20, [], [⟨0, 32, .ro, 0, .any⟩]⟩,
  ⟨"RTDOWN", 0x24, [], [⟨0, 32, .ro, 0, .any⟩]⟩,
  ⟨"EPSTALE", 0x28, [], [⟨0, 32, .ro, 0, .any⟩]⟩,
  ⟨"BADFLIT", 0x2C, [], [⟨0, 32, .ro, 0, .any⟩]⟩]

def map_fabric1 : List RegSpec := [
  ⟨"RSPLATE", 0x30, [], [⟨0, 32, .ro, 0, .any⟩]⟩,
  ⟨"SVIOLM", 0x34, [], [⟨0, 32, .ro, 0, .any⟩]⟩,
  ⟨"LNKCTL", 0x1000, [(0x40, 24)], [⟨8, 8, .rw, 15, .any⟩, ⟨4, 1, .strobe, 0, .any⟩, ⟨3, 1, .strobe, 0, .any⟩, ⟨1, 2, .rw, 2, (.range 1 2)⟩, ⟨0, 1, .rw, 0, .any⟩]⟩,
  ⟨"LNKSTAT", 0x1004, [(0x40, 24)], [⟨28, 4, .ro, 0, .any⟩, ⟨26, 2, .ro, 0, .any⟩, ⟨22, 4, .ro, 0, .any⟩, ⟨21, 1, .ro, 0, .any⟩, ⟨20, 1, .w1c, 0, .any⟩, ⟨16, 4, .ro, 0, .any⟩, ⟨15, 1, .ro, 0, .any⟩]⟩,
  ⟨"LNKPEER", 0x1008, [(0x40, 24)], [⟨31, 1, .ro, 0, .any⟩, ⟨16, 12, .ro, 0, .any⟩, ⟨0, 5, .ro, 0, .any⟩]⟩,
  ⟨"LNKFC0", 0x100C, [(0x40, 24)], [⟨16, 10, .rw, 320, .any⟩, ⟨0, 10, .rw, 192, .any⟩]⟩,
  ⟨"LNKFC1", 0x1010, [(0x40, 24)], [⟨16, 10, .rw, 320, .any⟩, ⟨0, 10, .rw, 192, .any⟩]⟩,
  ⟨"LNKFC2", 0x1014, [(0x40, 24)], [⟨16, 10, .rw, 320, .any⟩, ⟨0, 10, .rw, 192, .any⟩]⟩,
  ⟨"LNKFC3", 0x1018, [(0x40, 24)], [⟨16, 10, .rw, 32, .any⟩, ⟨0, 10, .rw, 16, .any⟩]⟩,
  ⟨"LNKRPL", 0x101C, [(0x40, 24)], [⟨24, 8, .rw, 16, .any⟩, ⟨0, 12, .rw, 2000, (.range 500 2400)⟩]⟩]

def map_fabric2 : List RegSpec := [
  ⟨"FECCOR", 0x1020, [(0x40, 24)], [⟨0, 32, .ro, 0, .any⟩]⟩,
  ⟨"FECUNC", 0x1024, [(0x40, 24)], [⟨0, 32, .ro, 0, .any⟩]⟩,
  ⟨"HDRCRC", 0x1028, [(0x40, 24)], [⟨0, 32, .ro, 0, .any⟩]⟩,
  ⟨"REPLAY", 0x102C, [(0x40, 24)], [⟨0, 32, .ro, 0, .any⟩]⟩,
  ⟨"FCDROP", 0x1030, [(0x40, 24)], [⟨0, 32, .ro, 0, .any⟩]⟩,
  ⟨"SVIOL", 0x1034, [(0x40, 24)], [⟨0, 32, .ro, 0, .any⟩]⟩,
  ⟨"TRNFAIL", 0x1038, [(0x40, 24)], [⟨0, 32, .ro, 0, .any⟩]⟩]

def map_fabric : List RegSpec := map_fabric0 ++ map_fabric1 ++ map_fabric2

/-- The registers of the collective block as the spec's tables list them. -/
def map_collective0 : List RegSpec := [
  ⟨"COLCTL", 0x0, [], [⟨2, 1, .strobe, 0, .any⟩, ⟨1, 1, .strobe, 0, .any⟩, ⟨0, 1, .rw, 0, .any⟩]⟩,
  ⟨"COLSTAT", 0x4, [], [⟨30, 2, .ro, 0, .any⟩, ⟨25, 5, .ro, 0, .any⟩, ⟨20, 5, .ro, 0, .any⟩]⟩,
  ⟨"GRPSEL", 0x8, [], [⟨31, 1, .rw, 0, .any⟩, ⟨30, 1, .rw, 0, .any⟩, ⟨0, 12, .rw, 0, .any⟩]⟩,
  ⟨"GBSEL", 0x18, [], [⟨0, 12, .rw, 0, .any⟩]⟩,
  ⟨"RETSEL", 0x1C, [], [⟨0, 10, .rw, 0, .any⟩]⟩,
  ⟨"REDMISS", 0x20, [], [⟨0, 32, .ro, 0, .any⟩]⟩,
  ⟨"REDLATE", 0x24, [], [⟨0, 32, .ro, 0, .any⟩]⟩,
  ⟨"REDLATEC", 0x28, [], [⟨0, 32, .ro, 0, .any⟩]⟩,
  ⟨"REDEARLY", 0x2C, [], [⟨0, 32, .ro, 0, .any⟩]⟩,
  ⟨"REDDUP", 0x30, [], [⟨0, 32, .ro, 0, .any⟩]⟩]

def map_collective1 : List RegSpec := [
  ⟨"REDSLOTW", 0x34, [], [⟨0, 32, .ro, 0, .any⟩]⟩,
  ⟨"REDSHORT", 0x38, [], [⟨0, 32, .ro, 0, .any⟩]⟩,
  ⟨"REDEMPTY", 0x3C, [], [⟨0, 32, .ro, 0, .any⟩]⟩,
  ⟨"RETDONE", 0x40, [], [⟨0, 32, .ro, 0, .any⟩]⟩,
  ⟨"RETSTALE", 0x44, [], [⟨0, 32, .ro, 0, .any⟩]⟩,
  ⟨"COLDISC", 0x48, [], [⟨0, 32, .ro, 0, .any⟩]⟩,
  ⟨"GRPDATA", 0xC, [(0x4, 3)], [⟨0, 32, .rw, 0, .any⟩]⟩]

def map_collective : List RegSpec := map_collective0 ++ map_collective1

/-- The registers of the host block as the spec's tables list them. -/
def map_host : List RegSpec := [
  ⟨"HIFSTAT", 0x0, [], [⟨30, 2, .ro, 0, .any⟩, ⟨28, 2, .ro, 0, .any⟩, ⟨27, 1, .ro, 0, .any⟩, ⟨26, 1, .ro, 0, .any⟩, ⟨25, 1, .ro, 0, .any⟩]⟩,
  ⟨"UPDSTB", 0x10, [], [⟨16, 16, .strobe, 0, .any⟩, ⟨0, 16, .strobe, 0, .any⟩]⟩,
  ⟨"UPDSTAT", 0x14, [], [⟨16, 16, .ro, 0, .any⟩, ⟨0, 16, .ro, 0, .any⟩]⟩,
  ⟨"UPDREF", 0x18, [], [⟨0, 16, .w1c, 0, .any⟩]⟩,
  ⟨"REGCTL", 0x20, [], [⟨0, 1, .strobe, 0, .any⟩]⟩,
  ⟨"REGTO", 0x24, [], [⟨0, 32, .ro, 0, .any⟩]⟩,
  ⟨"REGERRC", 0x28, [], [⟨0, 32, .ro, 0, .any⟩]⟩,
  ⟨"LOCKREF", 0x2C, [], [⟨0, 32, .ro, 0, .any⟩]⟩,
  ⟨"REGFIRST", 0x30, [], [⟨31, 1, .w1c, 0, .any⟩, ⟨28, 3, .ro, 0, .any⟩, ⟨26, 2, .ro, 0, .any⟩, ⟨0, 26, .ro, 0, .any⟩]⟩,
  ⟨"UPDMAP", 0x100, [(0x4, 23)], [⟨28, 4, .rw, 1, (.range 1 15)⟩, ⟨24, 4, .rw, 1, (.range 1 15)⟩, ⟨20, 4, .rw, 1, (.range 1 15)⟩, ⟨16, 4, .rw, 1, (.range 1 15)⟩, ⟨12, 4, .rw, 1, (.range 1 15)⟩, ⟨8, 4, .rw, 1, (.range 1 15)⟩, ⟨4, 4, .rw, 1, (.range 1 15)⟩, ⟨0, 4, .rw, 1, (.range 1 15)⟩]⟩]

/-- The registers of the security block as the spec's tables list them. -/
def map_security : List RegSpec := [
  ⟨"STAGESTAT", 0x0, [], [⟨29, 3, .ro, 1, .any⟩, ⟨28, 1, .ro, 0, .any⟩, ⟨27, 1, .ro, 0, .any⟩, ⟨23, 4, .ro, 0, .any⟩]⟩,
  ⟨"BOOTSTAT", 0x4, [], [⟨31, 1, .ro, 0, .any⟩, ⟨30, 1, .ro, 0, .any⟩, ⟨28, 2, .ro, 0, .any⟩, ⟨26, 2, .ro, 0, .any⟩, ⟨25, 1, .ro, 0, .any⟩, ⟨18, 7, .ro, 0, .any⟩, ⟨11, 7, .ro, 0, .any⟩, ⟨10, 1, .ro, 0, .any⟩]⟩,
  ⟨"BOOTCTL", 0x8, [], [⟨0, 2, .rw, 0, (.range 0 2)⟩]⟩,
  ⟨"RBSTAT", 0xC, [], [⟨25, 7, .ro, 0, .any⟩, ⟨18, 7, .ro, 0, .any⟩]⟩,
  ⟨"CAPSTAT", 0x10, [], [⟨24, 8, .ro, 0, .any⟩, ⟨16, 8, .ro, 0, .any⟩, ⟨8, 8, .ro, 0, .any⟩, ⟨0, 8, .ro, 0, .any⟩]⟩,
  ⟨"MBCMD", 0x100, [], [⟨24, 8, .rw, 0, .any⟩, ⟨0, 11, .rw, 0, (.range 0 1024)⟩]⟩,
  ⟨"MBSTAT", 0x104, [], [⟨31, 1, .ro, 0, .any⟩, ⟨30, 1, .w1c, 0, .any⟩, ⟨16, 8, .ro, 0, .any⟩, ⟨0, 11, .ro, 0, .any⟩]⟩,
  ⟨"FENCE", 0x20, [(0x4, 4)], [⟨0, 32, .ro, 0, .any⟩]⟩,
  ⟨"MBDATA", 0x1000, [(0x4, 256)], [⟨0, 32, .rw, 0, .any⟩]⟩]

/-- The registers of the faultHub block as the spec's tables list them. -/
def map_faultHub0 : List RegSpec := [
  ⟨"FHCTL", 0x0, [], [⟨0, 1, .strobe, 0, .any⟩]⟩,
  ⟨"FHCFG", 0x4, [], [⟨20, 12, .rw, 20, (.range 1 4095)⟩, ⟨12, 8, .rw, 10, .any⟩, ⟨11, 1, .rw, 1, .any⟩, ⟨8, 3, .rw, 3, (.range 0 4)⟩, ⟨0, 5, .rw, 0, .any⟩]⟩,
  ⟨"FHVEC", 0x8, [], [⟨0, 11, .rw, 0, .any⟩]⟩,
  ⟨"FHPEND", 0xC, [], [⟨4, 1, .ro, 0, .any⟩, ⟨3, 1, .ro, 0, .any⟩, ⟨2, 1, .ro, 0, .any⟩, ⟨1, 1, .w1c, 0, .any⟩, ⟨0, 1, .w1c, 0, .any⟩]⟩,
  ⟨"FHCONT", 0x10, [], [⟨28, 4, .w1c, 0, .any⟩, ⟨4, 24, .w1c, 0, .any⟩, ⟨3, 1, .w1c, 0, .any⟩, ⟨2, 1, .w1c, 0, .any⟩, ⟨1, 1, .w1c, 0, .any⟩, ⟨0, 1, .w1c, 0, .any⟩]⟩,
  ⟨"FHSTAT", 0x14, [], [⟨30, 2, .ro, 0, .any⟩, ⟨28, 2, .ro, 0, .any⟩, ⟨0, 6, .ro, 0, .any⟩]⟩,
  ⟨"FHFNC", 0x300, [], [⟨30, 2, .rw, 0, (.range 0 2)⟩, ⟨29, 1, .strobe, 0, .any⟩, ⟨0, 7, .rw, 0, .any⟩]⟩,
  ⟨"FHFIRST", 0x100, [(0x10, 5)], [⟨31, 1, .w1c, 0, .any⟩, ⟨30, 1, .ro, 0, .any⟩, ⟨29, 1, .ro, 0, .any⟩, ⟨26, 3, .ro, 0, .any⟩, ⟨22, 4, .ro, 0, .any⟩, ⟨19, 3, .ro, 0, .any⟩]⟩,
  ⟨"FHSRC", 0x104, [(0x10, 5)], [⟨0, 24, .ro, 0, .any⟩]⟩,
  ⟨"FHMST", 0x108, [(0x10, 5)], [⟨20, 8, .ro, 0, .any⟩, ⟨0, 20, .ro, 0, .any⟩]⟩]

def map_faultHub1 : List RegSpec := [
  ⟨"FHCNT", 0x200, [(0x20, 6), (0x4, 5)], [⟨0, 32, .ro, 0, .any⟩]⟩]

def map_faultHub : List RegSpec := map_faultHub0 ++ map_faultHub1

/-- The registers of the test block as the spec's tables list them. -/
def map_test : List RegSpec := [
  ⟨"TLCTL", 0x0, [], [⟨31, 1, .lock, 0, .any⟩, ⟨0, 1, (.rwl 31), 0, .any⟩]⟩,
  ⟨"INJSEL", 0x100, [(0x10, 16)], [⟨24, 8, .rw, 0, .any⟩, ⟨16, 8, .rw, 0, .any⟩, ⟨8, 8, .rw, 0, .any⟩, ⟨1, 1, .rw, 0, .any⟩]⟩,
  ⟨"INJCTL", 0x104, [(0x10, 16)], [⟨1, 1, .strobe, 0, .any⟩, ⟨0, 1, .strobe, 0, .any⟩]⟩,
  ⟨"INJSTAT", 0x108, [(0x10, 16)], [⟨31, 1, .ro, 0, .any⟩, ⟨30, 1, .w1c, 0, .any⟩, ⟨29, 1, .w1c, 0, .any⟩]⟩]

/-- The registers of the power block as the spec's tables list them. -/
def map_power : List RegSpec := [
  ⟨"PCCFG", 0x0, [], [⟨0, 16, .rw, 4000, (.range 1000 4000)⟩]⟩,
  ⟨"PBRKCFG", 0x4, [], [⟨8, 8, .rw, 10, .any⟩, ⟨0, 4, .rw, 6, .any⟩]⟩,
  ⟨"PWRSTAT", 0x8, [], [⟨31, 1, .ro, 0, .any⟩, ⟨30, 1, .w1c, 0, .any⟩, ⟨0, 16, .ro, 0, .any⟩]⟩,
  ⟨"VFSTAT", 0x10, [(0x4, 4)], [⟨28, 4, .ro, 0, .any⟩, ⟨24, 4, .ro, 0, .any⟩, ⟨22, 2, .ro, 0, .any⟩, ⟨0, 16, .ro, 0, .any⟩]⟩,
  ⟨"THCFG", 0x20, [], [⟨24, 8, .rw, 105, .any⟩, ⟨16, 8, .rw, 100, .any⟩, ⟨8, 8, .rw, 95, .any⟩]⟩,
  ⟨"THSTAT", 0x24, [], [⟨24, 8, .ro, 0, .any⟩, ⟨16, 8, .ro, 0, .any⟩, ⟨1, 1, .ro, 0, .any⟩, ⟨0, 1, .w1c, 0, .any⟩]⟩,
  ⟨"FLCTL", 0x30, [], [⟨30, 2, .strobe, 0, .any⟩, ⟨0, 27, .rw, 0, .any⟩]⟩,
  ⟨"FLSTAT", 0x34, [], [⟨31, 1, .ro, 0, .any⟩, ⟨30, 1, .w1c, 0, .any⟩, ⟨29, 1, .w1c, 0, .any⟩, ⟨0, 1, .ro, 0, .any⟩]⟩,
  ⟨"FLBUF", 0x1000, [(0x4, 64)], [⟨0, 32, .rw, 0, .any⟩]⟩]

end Sys2Proof.Machine
end

