-- ==== Sys2Proof/Machine/Fp.lean ====
section
/-! DEFINITION. Sys2Proof/Machine/Fp.lean: the number formats of R103 to R116, exact values, rounding, conversion
(R123 to R131) and the FP32 arithmetic of R120 to R122. A value is held exactly as sign, integer and power of two;
every operation computes exactly and rounds once. -/

namespace Sys2Proof.Machine

/-- An exact value: NaN, an infinity, or (−1)^neg · m · 2^e. Zero keeps its sign (m = 0). -/
inductive FVal where
  | nan
  | inf (neg : Bool)
  | fin (neg : Bool) (m : Nat) (e : Int)
deriving DecidableEq, Repr

/-- The format codes of R103 that are not reserved. -/
inductive Fmt where
  | fp32 | bf16 | fp16 | e4m3 | e5m2 | int8 | mx8e4m3 | mx8e5m2 | mx6e2m3 | mx6e3m2 | mx4e2m1
deriving DecidableEq, Repr

/-- R103: decoding of FMT; 0b1011 to 0b1111 are reserved. -/
def Fmt.ofCode : Nat → Option Fmt
  | 0 => some .fp32 | 1 => some .bf16 | 2 => some .fp16 | 3 => some .e4m3 | 4 => some .e5m2 | 5 => some .int8
  | 6 => some .mx8e4m3 | 7 => some .mx8e5m2 | 8 => some .mx6e2m3 | 9 => some .mx6e3m2 | 10 => some .mx4e2m1
  | _ => none

/-- R103: bits of one element. -/
def Fmt.bits : Fmt → Nat
  | .fp32 => 32 | .bf16 => 16 | .fp16 => 16 | .e4m3 => 8 | .e5m2 => 8 | .int8 => 8
  | .mx8e4m3 => 8 | .mx8e5m2 => 8 | .mx6e2m3 => 6 | .mx6e3m2 => 6 | .mx4e2m1 => 4

/-- R103: the format carries a shared E8M0 scale. -/
def Fmt.isMx : Fmt → Bool
  | .mx8e4m3 | .mx8e5m2 | .mx6e2m3 | .mx6e3m2 | .mx4e2m1 => true
  | _ => false

/-- What the top exponent encodes (R108). -/
inductive Specials where
  | ieee      -- infinity and NaN
  | ofp       -- NaN only, at all ones (E4M3)
  | absent    -- neither (FP6, FP4)
deriving DecidableEq, Repr

/-- A binary floating layout (R106). -/
structure Layout where
  ew : Nat
  fw : Nat
  bias : Int
  sp : Specials
deriving DecidableEq, Repr

/-- R106: element layouts. INT8 has none. -/
def Fmt.layout : Fmt → Option Layout
  | .fp32 => some ⟨8, 23, 127, .ieee⟩
  | .bf16 => some ⟨8, 7, 127, .ieee⟩
  | .fp16 => some ⟨5, 10, 15, .ieee⟩
  | .e4m3 | .mx8e4m3 => some ⟨4, 3, 7, .ofp⟩
  | .e5m2 | .mx8e5m2 => some ⟨5, 2, 15, .ieee⟩
  | .mx6e2m3 => some ⟨2, 3, 1, .absent⟩
  | .mx6e3m2 => some ⟨3, 2, 3, .absent⟩
  | .mx4e2m1 => some ⟨2, 1, 1, .absent⟩
  | .int8 => none

def fp32L : Layout := ⟨8, 23, 127, .ieee⟩
def bf16L : Layout := ⟨8, 7, 127, .ieee⟩

/-- R106 to R110: the value of an element's bits. Every NaN encoding is NaN. -/
def Layout.decode (l : Layout) (b : Nat) : FVal :=
  let f := b % 2 ^ l.fw
  let x := b / 2 ^ l.fw % 2 ^ l.ew
  let s := b / 2 ^ (l.fw + l.ew) % 2 == 1
  let top := 2 ^ l.ew - 1
  if l.sp = .ieee && x == top then (if f == 0 then .inf s else .nan)
  else if l.sp = .ofp && x == top && f == 2 ^ l.fw - 1 then .nan
  else if x == 0 then .fin s f (1 - l.bias - l.fw)
  else .fin s (2 ^ l.fw + f) ((x : Int) - l.bias - l.fw)

/-- R108: the largest finite value as significand and exponent. -/
def Layout.maxM (l : Layout) : Nat :=
  match l.sp with
  | .ofp => 2 ^ (l.fw + 1) - 2
  | _ => 2 ^ (l.fw + 1) - 1
def Layout.maxE (l : Layout) : Int :=
  let top : Int := (2 ^ l.ew : Nat) - 1
  (match l.sp with | .ieee => top - 1 | _ => top) - l.bias - l.fw

/-- R111: the canonical NaN. -/
def Layout.nanBits (l : Layout) : Nat :=
  match l.sp with
  | .ieee => (2 ^ l.ew - 1) * 2 ^ l.fw + 2 ^ (l.fw - 1)
  | _ => 2 ^ (l.ew + l.fw) - 1

def Layout.signBit (l : Layout) (neg : Bool) : Nat := if neg then 2 ^ (l.ew + l.fw) else 0

/-- The bits of a value n · 2^q that lies on the layout's grid. -/
def Layout.encodeFin (l : Layout) (neg : Bool) (n : Nat) (q : Int) : Nat :=
  l.signBit neg +
    (if n == 0 then 0
     else
       let lg : Int := (Nat.log2 n : Int)
       let ex : Int := lg + q
       let emin : Int := 1 - l.bias
       if ex < emin then
         n * 2 ^ (q - (emin - l.fw)).toNat / 2 ^ ((emin - l.fw) - q).toNat
       else
         let sig := n * 2 ^ ((l.fw : Int) - lg).toNat / 2 ^ (lg - (l.fw : Int)).toNat
         (ex + l.bias).toNat * 2 ^ l.fw + (sig - 2 ^ l.fw))

def Layout.infBits (l : Layout) (neg : Bool) : Nat := l.signBit neg + (2 ^ l.ew - 1) * 2 ^ l.fw

/-- Sticky flags of R135 as a mask of FMTFLG. -/
abbrev Fl := BitVec 8
def Fl.nanin : Fl := 0x80#8
def Fl.infin : Fl := 0x40#8
def Fl.nangen : Fl := 0x20#8
def Fl.ovfnf : Fl := 0x10#8
def Fl.satur : Fl := 0x08#8
def Fl.mxclamp : Fl := 0x04#8
def Fl.under : Fl := 0x02#8
def Fl.invcvt : Fl := 0x01#8

/-- R123: the rounding modes that are not reserved. -/
inductive RMode where
  | near | zero | stoch
deriving DecidableEq, Repr

/-- The conversion control CONV of R123; RMODE 0b11 is reserved. -/
structure Conv where
  sat : Bool
  mode : RMode
deriving DecidableEq, Repr

/-- Log entry 23, DEDUCED. -/
def Conv.ofCode (c : Nat) : Option Conv :=
  let sat := c / 4 % 2 == 1
  match c % 4 with
  | 0 => some ⟨sat, .near⟩
  | 1 => some ⟨sat, .zero⟩
  | 2 => some ⟨sat, .stoch⟩
  | _ => none

/-- Rounding of m · 2^e to a multiple of 2^q: the multiple (R125, R130). `draw` is R of R130. -/
def roundMul (mode : RMode) (draw : Nat) (m : Nat) (e q : Int) : Nat :=
  if q ≤ e then m * 2 ^ (e - q).toNat
  else
    let sh := (q - e).toNat
    let n := m / 2 ^ sh
    let r := m % 2 ^ sh
    match mode with
    | .zero => n
    | .near =>
      if 2 * r > 2 ^ sh then n + 1
      else if 2 * r == 2 ^ sh then n + n % 2
      else n
    | .stoch => if draw < r * 65536 / 2 ^ sh then n + 1 else n

/-- The spacing exponent of the layout at m · 2^e (m > 0); `cap` continues the top binade at its own spacing (R129). -/
def Layout.quantum (l : Layout) (cap : Bool) (m : Nat) (e : Int) : Int :=
  let ex : Int := (Nat.log2 m : Int) + e
  let lo : Int := 1 - l.bias
  let q := max ex lo - l.fw
  if cap then min q l.maxE else q

/-- n · 2^q lies above the layout's largest finite value. -/
def Layout.above (l : Layout) (n : Nat) (q : Int) : Bool :=
  if q ≥ l.maxE then decide (n * 2 ^ (q - l.maxE).toNat > l.maxM)
  else decide (n > l.maxM * 2 ^ (l.maxE - q).toNat)

/-- R123 to R127, R130, R131: conversion of a value to a floating layout: the target's bits and the flags raised.
Log entry 85, DEDUCED. -/
def Layout.convert (l : Layout) (c : Conv) (draw : Nat) : FVal → Nat × Fl
  | .nan => (l.nanBits, Fl.nanin)
  | .inf s => ((if l.sp = .ieee then l.infBits s else l.nanBits), Fl.infin)
  | .fin s m e =>
    if m == 0 then (l.signBit s, 0)
    else
      let q := l.quantum false m e
      let n := roundMul c.mode draw m e q
      if l.above n q then
        if c.mode = .zero then (l.encodeFin s l.maxM l.maxE, 0)
        else if c.sat then (l.encodeFin s l.maxM l.maxE, Fl.satur)
        else ((if l.sp = .ieee then l.infBits s else l.nanBits), Fl.ovfnf)
      else (l.encodeFin s n q, if n == 0 then Fl.under else 0)

/-- R128, R126: conversion to INT8. -/
def convertInt8 (c : Conv) (draw : Nat) : FVal → Nat × Fl
  | .nan => (0, Fl.nanin ||| Fl.invcvt)
  | .inf s => ((if s then 0x80 else 0x7F), Fl.infin ||| Fl.invcvt)
  | .fin s m e =>
    let n := roundMul c.mode draw m e 0
    if s then
      if n > 128 then (0x80, Fl.satur) else ((256 - n) % 256, if n == 0 && m != 0 then Fl.under else 0)
    else
      if n > 127 then (0x7F, Fl.satur) else (n, if n == 0 && m != 0 then Fl.under else 0)

/-- Conversion of one value to a format without a shared scale. -/
def convertTo (f : Fmt) (c : Conv) (draw : Nat) (v : FVal) : Nat × Fl :=
  match f.layout with
  | none => convertInt8 c draw v
  | some l => l.convert c draw v

/-- The value of an INT8 element (R109). -/
def decodeInt8 (b : Nat) : FVal :=
  let b := b % 256
  if b < 128 then .fin false b 0 else .fin true (256 - b) 0

/-- The value of an element's bits, without any shared scale. -/
def Fmt.decode (f : Fmt) (b : Nat) : FVal :=
  match f.layout with
  | none => decodeInt8 b
  | some l => l.decode b

/-- Multiplication of a value by 2^k, exactly. -/
def FVal.scale (v : FVal) (k : Int) : FVal :=
  match v with
  | .fin s m e => .fin s m (e + k)
  | v => v

/-- R112, R113: the value of an MX element under its block's scale byte. -/
def Fmt.decodeMx (f : Fmt) (scale b : Nat) : FVal :=
  if scale % 256 == 0xFF then .nan else (f.decode b).scale ((scale % 256 : Nat) - 127)

def FVal.isFinite : FVal → Bool
  | .fin .. => true
  | _ => false
def FVal.isNan : FVal → Bool
  | .nan => true
  | _ => false
def FVal.isZero : FVal → Bool
  | .fin _ m _ => m == 0
  | _ => false
def FVal.neg? : FVal → Bool
  | .nan => false
  | .inf s => s
  | .fin s _ _ => s

/-- NANIN and INFIN of an operand read (R135). -/
def FVal.inFlags : FVal → Fl
  | .nan => Fl.nanin
  | .inf _ => Fl.infin
  | _ => 0

/-- floor(log₂) of a finite non-zero magnitude. -/
def FVal.expo : FVal → Int
  | .fin _ m e => (Nat.log2 m : Int) + e
  | _ => 0

/-- R129: emax of an MX element format. -/
def Fmt.emax : Fmt → Int
  | .mx8e4m3 => 8 | .mx8e5m2 => 15 | .mx6e2m3 => 2 | .mx6e3m2 => 4 | .mx4e2m1 => 2
  | _ => 0

/-- The largest of the exponents of the non-zero values, if any is non-zero. -/
def maxExpo : List FVal → Option Int
  | [] => none
  | v :: vs =>
    let r := maxExpo vs
    if v.isZero then r else
      match r with
      | none => some v.expo
      | some x => some (max v.expo x)

/-- R129 step 4: one element under the block's scale exponent. -/
def mxElem (l : Layout) (mode : RMode) (draw : Nat) (k : Int) : FVal → Nat × Fl
  | .fin s m e =>
    if m == 0 then (l.signBit s, 0)
    else
      let e' := e - k
      let q := l.quantum true m e'
      let n := roundMul mode draw m e' q
      if l.above n q then (l.encodeFin s l.maxM l.maxE, Fl.mxclamp)
      else (l.encodeFin s n q, if n == 0 then Fl.under else 0)
  | _ => (0, 0)

/-- Elements with their draws, one draw a position (R134). -/
def mxElems (l : Layout) (mode : RMode) (k : Int) : List FVal → List Nat → List Nat × Fl
  | [], _ => ([], 0)
  | v :: vs, ds =>
    let r := mxElem l mode (ds.headD 0) k v
    let rs := mxElems l mode k vs ds.tail
    (r.1 :: rs.1, r.2 ||| rs.2)

/-- R129: conversion of one block of values: the scale byte, the element bits, the flags. -/
def mxConvert (f : Fmt) (mode : RMode) (draws : List Nat) (vs : List FVal) : Nat × List Nat × Fl :=
  match f.layout with
  | none => (0xFF, vs.map fun _ => 0, 0)
  | some l =>
    if vs.any fun v => !v.isFinite then
      (0xFF, vs.map fun _ => 0, vs.foldl (fun a v => a ||| v.inFlags) 0)
    else
      match maxExpo vs with
      | none => (0x7F, vs.map fun v => l.signBit v.neg?, 0)
      | some x =>
        let sb : Int := min 254 (max 0 (x - f.emax + 127))
        let r := mxElems l mode (sb - 127) vs draws
        (sb.toNat, r.1, r.2)

/-- Rounding of an exact value to FP32, nearest even, with the flags of R121: overflow and underflow. -/
def round32 : FVal → FVal × Fl
  | .fin s m e =>
    if m == 0 then (.fin s 0 0, 0)
    else
      let q := fp32L.quantum false m e
      let n := roundMul .near 0 m e q
      if fp32L.above n q then (.inf s, Fl.ovfnf)
      else (.fin s n q, if n == 0 then Fl.under else 0)
  | v => (v, 0)

/-- The FP32 bits of a value that is representable. -/
def FVal.bits32 : FVal → Nat
  | .nan => fp32L.nanBits
  | .inf s => fp32L.infBits s
  | .fin s m e => (fp32L.convert ⟨false, .near⟩ 0 (.fin s m e)).1

def of32 (b : Nat) : FVal := fp32L.decode b

def FVal.negate : FVal → FVal
  | .nan => .nan
  | .inf s => .inf (!s)
  | .fin s m e => .fin (!s) m e
def FVal.abs : FVal → FVal
  | .nan => .nan
  | .inf _ => .inf false
  | .fin _ m e => .fin false m e

/-- The exact sum of two finite values; an exact zero sum is −0 only from two negative zeros. -/
def addFin (s1 : Bool) (m1 : Nat) (e1 : Int) (s2 : Bool) (m2 : Nat) (e2 : Int) : FVal :=
  let e := min e1 e2
  let a : Int := (m1 * 2 ^ (e1 - e).toNat : Nat)
  let b : Int := (m2 * 2 ^ (e2 - e).toNat : Nat)
  let x := (if s1 then -a else a) + (if s2 then -b else b)
  if x == 0 then .fin (s1 && s2) 0 0
  else .fin (decide (x < 0)) x.natAbs e

/-- R121, R122: exact addition with the invalid case. -/
def FVal.addX : FVal → FVal → FVal × Fl
  | .nan, _ => (.nan, 0)
  | _, .nan => (.nan, 0)
  | .inf a, .inf b => if a == b then (.inf a, 0) else (.nan, Fl.nangen)
  | .inf a, _ => (.inf a, 0)
  | _, .inf b => (.inf b, 0)
  | .fin s1 m1 e1, .fin s2 m2 e2 => (addFin s1 m1 e1 s2 m2 e2, 0)

/-- R121, R122: exact multiplication with the invalid case. -/
def FVal.mulX : FVal → FVal → FVal × Fl
  | .nan, _ => (.nan, 0)
  | _, .nan => (.nan, 0)
  | .inf a, .inf b => (.inf (a != b), 0)
  | .inf a, .fin s m _ => if m == 0 then (.nan, Fl.nangen) else (.inf (a != s), 0)
  | .fin s m _, .inf b => if m == 0 then (.nan, Fl.nangen) else (.inf (s != b), 0)
  | .fin s1 m1 e1, .fin s2 m2 e2 => (.fin (s1 != s2) (m1 * m2) (e1 + e2), 0)

/-- FP32 addition, rounded once. -/
def add32 (a b : FVal) : FVal × Fl :=
  let x := a.addX b
  let r := round32 x.1
  (r.1, x.2 ||| r.2)
/-- FP32 multiplication, rounded once. -/
def mul32 (a b : FVal) : FVal × Fl :=
  let x := a.mulX b
  let r := round32 x.1
  (r.1, x.2 ||| r.2)
/-- FP32 fused multiply-add a · b + c, rounded once. A NaN addend is a NaN input of the one operation: its result is then
generated by no invalid product (R135). -/
def fma32 (a b c : FVal) : FVal × Fl :=
  let x := a.mulX b
  let y := x.1.addX c
  let r := round32 y.1
  (r.1, (if c.isNan then 0 else x.2) ||| y.2 ||| r.2)

/-- R120: the exact product of two Weave operands, ±∞ beyond the FP32 range and a signed zero below its smallest
subnormal. Log entry 101, DEDUCED. -/
def weaveProduct (a b : FVal) : FVal × Fl :=
  let x := a.mulX b
  match x.1 with
  | .fin s m e =>
    if m == 0 then (.fin s 0 0, x.2)
    else if fp32L.above m e then (.inf s, x.2 ||| Fl.ovfnf)
    else if (Nat.log2 m : Int) + e < -149 then (.fin s 0 0, x.2 ||| Fl.under)
    else (.fin s m e, x.2)
  | v => (v, x.2)

/-- a < b for non-NaN values. −0 and +0 are equal. -/
def FVal.lt : FVal → FVal → Bool
  | .nan, _ => false
  | _, .nan => false
  | .inf a, .inf b => a && !b
  | .inf a, .fin .. => a
  | .fin .., .inf b => !b
  | .fin s1 m1 e1, .fin s2 m2 e2 =>
    match addFin s1 m1 e1 (!s2) m2 e2 with
    | .fin s m _ => s && m != 0
    | _ => false

/-- Equality as numbers; false with a NaN. -/
def FVal.eqv (a b : FVal) : Bool := !a.isNan && !b.isNan && !a.lt b && !b.lt a
def FVal.le (a b : FVal) : Bool := !a.isNan && !b.isNan && !b.lt a

/-- Integer square root by bisection on `fuel` bits: the largest r below 2^fuel with r² ≤ n. -/
def isqrt (fuel : Nat) (n : Nat) : Nat :=
  match fuel with
  | 0 => 0
  | k + 1 =>
    let r := isqrt k (n / 4)
    let r2 := 2 * r + 1
    if r2 * r2 ≤ n then r2 else 2 * r

end Sys2Proof.Machine
end

