-- ==== Sys2Proof/Machine/State.lean ====
section
/-! DEFINITION. Sys2Proof/Machine/State.lean: the state of the module, as plain data, and the state after power-on
reset. Registers of BAR0 are kept by offset (an unlisted register holds its reset value); every other piece of state
the spec names has a field of its own. -/

namespace Sys2Proof.Machine

/-- Why a command stops the block: nothing does, since the spec gives every command an effect. -/
inductive Fault where
deriving DecidableEq, Repr

/-- Why a command is refused. -/
inductive Refusal where
  /-- Raised by `exec` on a command that has no meaning yet: safe. -/
  | notModelled (mnemonic : String)
deriving DecidableEq, Repr

/-- The fault classes of R778. -/
inductive Cls where
  | notice | corrected | contained | device | grave
deriving DecidableEq, Repr

/-- The party that a report marks or records (R779, R812). -/
inductive Party where
  | none | d | t | host | roundIn | ibcia (port : Nat) | cxl (port : Nat) | module
deriving DecidableEq, Repr

/-- One report of a detector on its way to the Fault Hub (R774, R785, R801). -/
structure Report where
  cls : Cls
  det : Nat
  unit : Nat
  cause : Nat
  party : Party
  acc : Nat
  coll : Nat
  master : Nat
  addr : Nat
  time : Nat
  /-- The fabric cycle in which the report was made (R774). -/
  cyc : Nat
  inj : Bool
deriving DecidableEq, Repr

/-- The capture of one class in the Hub's wide values (R784, R815). -/
structure Capture where
  addr : Nat := 0
  time : Nat := 0
deriving DecidableEq, Repr

/-- What the module sends out of itself. Log entry 7, DESIGN CHOICE. -/
inductive Output where
  /-- A PCIe memory write to a host bus address (R391). -/
  | hostWrite (addr : Nat) (data : List Byte) (poison : Bool)
  /-- A PCIe memory read to a host bus address. -/
  | hostRead (addr len : Nat)
  /-- An MSI-X message of a vector: the address and data of its table entry (R698). -/
  | msix (vec addr : Nat) (data : W32)
  /-- A flit sent from an Ibcia port (R591). -/
  | flit (port : Nat) (hdr : W128) (payload : List Byte)
  /-- A 100 ns pulse on ROUND_OUT, or a repeated edge (R89), at a device time. -/
  | roundOut (time : Nat)
  /-- An SPDM response (R762). -/
  | spdm (data : List Byte)
  /-- The module's side of the exchange of a port's training state (R621): what CONFIG carries. -/
  | frame (port state genMax blk : Nat)
deriving DecidableEq, Repr

/-- The reply to the latest non-posted access from outside: a configuration or BAR read, a register read of a
requester, or a sideband read. Log entry 7, DESIGN CHOICE. -/
inductive Reply where
  | none
  | data (bytes : List Byte)
  | retry
  | unsupported
  | abort
deriving DecidableEq, Repr

/-- The link reference clock (R45, R831): whether it is present and has been detected; the time it has counted, in tenths of
a nanosecond; and what device time is ahead of that, also in tenths, since it was last loaded (R46, R92). -/
structure Clock where
  present : Bool := false
  started : Bool := false
  tenths : Nat := 0
  base : Int := 0
deriving DecidableEq, Repr

/-- The Round block beside its registers (R42 to R95). -/
structure RoundS where
  num : W64 := 0
  /-- RNDSTAMP, in ns. -/
  stamp : Nat := 0
  /-- The clock's count at the latest boundary, in tenths of ns. -/
  stampTenths : Nat := 0
  /-- That count at the boundaries before, the latest first, as far back as a Round tag tells them apart (R455, R650). -/
  past : List Nat := []
  rndStart : W64 := 0
  dtStart : W64 := 0
  /-- The instant of the first boundary after RUN, in tenths of ns (R91). -/
  firstAt : Option Nat := none
  /-- A stop at the next boundary is pending (R94). -/
  stopping : Bool := false
  /-- The open window: 0 deadline, 1 to 4 training; none while Rounds are stopped. -/
  win : Option Nat := none
  /-- Consecutive missed edges, and consecutive good edges in HOLDOVER (R87, R88). -/
  missRun : Nat := 0
  goodRun : Nat := 0
  /-- In HOLDOVER: the acceptance window of the latest boundary is settled, by its edge or as missed; the window of the next
  boundary has had its edge (R88). -/
  edgeDone : Bool := true
  edgeNext : Bool := false
  /-- OUTMODE and RNDSYNC in force (R95). -/
  outmode : Nat := 0
  sync : W32 := 0x000083E8#32
  /-- The latest boundary for which ROUND_OUT has pulsed. -/
  pulsed : Bool := false
  /-- Dies whose context T re-alignment of the latest boundary is pending (R77), as a mask. -/
  realignPend : Nat := 0
  /-- Residues of the latest boundary found so far, per die: count, lowest counter, its residue (R79, R80). -/
  drift : Tab (Nat × Nat × W32) := []
  /-- DRIFTRND of each die. -/
  driftRnd : Tab W64 := []
deriving DecidableEq, Repr

/-- One declaration record of a manifest (R403). -/
structure Rec where
  typ : Nat
  idx : Nat
  v0 : Nat
  v1 : Nat
deriving DecidableEq, Repr

/-- A loaded job: what its manifest declares (R403, R404). -/
structure Job where
  seed : W64
  seedIdx : Nat
  recs : List Rec
  /-- The SHA-384 of the manifest as it was read, and the number of the Round of the load (R760, R761). -/
  digest : List Byte := []
  loadRnd : W64 := 0
  /-- A Round boundary has come since the load (R58, R265). -/
  started : Bool := false
deriving DecidableEq, Repr

/-- A sync counter (R430 to R444). The arrival and early sets are masks over the 128 cores. -/
structure Ctr where
  val : W32 := 0
  mode : Nat := 0
  owner : Option Ctx := none
  base : W32 := 0
  satf : Bool := false
  bad : Bool := false
  npart : Nat := 0
  arrived : Nat := 0
  early : Nat := 0
deriving DecidableEq, Repr

/-- A hart's run state (R265, R296). -/
inductive HSt where
  | notLoaded
  /-- Loaded, waiting for the first Round boundary. -/
  | waiting
  | running
  | halted
deriving DecidableEq, Repr

/-- The blocking instruction in which a hart stalls (R259, R449). -/
inductive Stall where
  | none
  | qpush (q : Nat) (word : W128)
  /-- XFENCE over a queue mask, for the entries pushed below a number. -/
  | xfence (mask upTo : Nat)
  | scwait (rd : Nat) (ctr : Nat) (thr : W32)
  | xbar (slot mask : Nat)
  /-- WFI since an instant; `woken` once a word has arrived (R266). -/
  | wfi (since : Nat) (woken : Bool)
deriving DecidableEq, Repr

/-- A queued command instruction: its word and its push number in the context (R275). `bad` marks an entry whose word
is uncorrectable (R317). -/
structure QEntry where
  word : W128
  seq : Nat
  bad : Bool := false
deriving DecidableEq, Repr

/-- The timer of a waiter (R450, R451): device time counted, and the limit, in tenths of ns. -/
structure Wait where
  age : Nat
  limit : Nat
deriving DecidableEq, Repr

/-- A xoshiro128++ state (R234). -/
structure Rng where
  s0 : W32
  s1 : W32
  s2 : W32
  s3 : W32
deriving DecidableEq, Repr

/-- One effect of an instruction in flight, performed when it retires (R311). -/
inductive Eff where
  /-- Bytes written at device addresses; the words of `bad` become poisoned. `part` has the mask of a byte of which only
  those bits are written. -/
  | mem (cells : List Host.Cell) (bad : List Nat) (part : List Host.Cell := [])
  /-- A mat word of an engine. -/
  | mat (eng idx : Nat) (val : W32)
  /-- The read of a mat word at which an armed error waits: its cause, its word index, and the access that reads it (R167). -/
  | matErr (eng cause idx acc : Nat)
  /-- A vector register word. -/
  | vreg (idx : Nat) (val : W32)
  /-- A generator state. -/
  | rng (pos : Nat) (st : Rng)
  /-- A reseed of every position (R238). -/
  | reseed (seed : W64)
  /-- A curve table in a slot (R222). -/
  | curve (slot : Nat) (bytes : List Byte) (ok : Bool)
  /-- Sync-port operations on a counter (R354). -/
  | cadd (ctr : Nat) (amt : Int)
  | cset (ctr : Nat) (val : W32)
  | sbar (ctr npart : Nat)
  /-- A window-end mark (R358). -/
  | wend (win rtag : Nat)
  /-- A withy store or message leaving the core (R350, R487): its endpoint (none for a device address of this module), the
  bytes or words, and which of them are poisoned. -/
  | wstore (ep : Option Nat) (addr : Nat) (bytes : List Byte) (bad : List Nat)
  | wmsg (ep q : Nat) (words : List (Nat × Bool))
  /-- A list handed to a DMA channel (R353). -/
  | dmago (ch : Nat) (addr nent : Nat)
deriving DecidableEq, Repr

/-- A command instruction in flight on a unit (R359 to R362). `effs` has one list of effects for each element
operation (for a Weave, for each destination mat). -/
structure InFlight where
  word : W128
  seq : Nat
  ctx : Ctx
  /-- Accumulator at issue, in tenths of ns. -/
  t0 : Nat
  effs : List (List Eff)
  flags : Fl
  /-- Byte ranges of the latched descriptors in the data-memory partition: first, length (R316). -/
  latched : List (Nat × Nat)
  /-- The instruction's place in the core's issue order (R57). -/
  iss : Nat := 0
  /-- Its unit or its context has been told to abort while it was in flight (R720, R797). -/
  told : Bool := false
deriving DecidableEq, Repr

/-- What a core holds for one context: its hart (R257), queues (R274), completion queue (R281), waiters (R449),
generators (R234) and idle counters (R675). Log entry 4, DESIGN CHOICE. -/
structure CoreCtx where
  hst : HSt := .notLoaded
  stall : Stall := .none
  pc : W64 := 0
  xs : Tab W64 := []
  /-- The reservation of LR: the data-memory partition offset reserved. -/
  resv : Option Nat := none
  instret : W64 := 0
  /-- The die's cycle count when the context was loaded (R264). -/
  cyc0 : Nat := 0
  imem : List Host.Cell := []
  dmem : List Host.Cell := []
  queues : Tab (List QEntry) := []
  nextSeq : Nat := 0
  cq : List W64 := []
  /-- Issue from the queues is halted (R284). -/
  issueHalt : Bool := false
  /-- A single step is being executed (R287). -/
  stepping : Bool := false
  haltPc : W64 := 0
  haltAddr : W64 := 0
  haltCmd : W128 := 0
  waits : Tab Wait := []
  snap : Tab (W64 × W64) := []
  seed : W64 := 0
  rng : Tab Rng := []
  /-- Windows of the present Round whose window-end mark has retired, as a mask (R58). -/
  marks : Nat := 0
  idle : Tab (BitVec 48) := []
deriving DecidableEq, Repr

/-- A core (R253). Log entry 4, DESIGN CHOICE. -/
structure CoreS where
  d : CoreCtx := {}
  t : CoreCtx := {}
  /-- Instructions in flight, by unit. -/
  infl : Tab InFlight := []
  /-- Mat words: engine × 65,536 + mat × 1,024 + word (R160). -/
  mats : Tab W32 := []
  /-- The null mats (R166): engine × 1,024 + element. -/
  nullMats : Tab W32 := []
  /-- Vector register words: register × 256 + word (R206). -/
  vregs : Tab W32 := []
  /-- Curve tables, by slot: 3,136 bytes each (R219). -/
  curves : Tab (List Byte) := []
  /-- Message queues, by physical number (R418). -/
  mqs : Tab (List W64) := []
  /-- A switch not yet complete: the incoming context and the boundary's accumulator (R62). -/
  switch : Option (Ctx × Nat) := none
  /-- How many command instructions the core has issued, and how many it had at the latest Round boundary (R77). -/
  nextIss : Nat := 0
  boundIss : Nat := 0
  /-- WVCFG of each engine as it took effect at the latest entry into DUMMY, RAMPDOWN or RAMPUP (R201). -/
  pwr : Tab W32 := []
deriving DecidableEq, Repr

/-- A fast-barrier slot of a cluster (R293, R448): participant mask, arrivals, early arrivals, generation, and the
harts of the completed generation not yet released; `next` is the mask of the early arrivals. -/
structure FbSlot where
  mask : Nat := 0
  arrived : Nat := 0
  early : Nat := 0
  gen : W16 := 0
  release : Nat := 0
  next : Nat := 0
deriving DecidableEq, Repr

/-- A line of a shared cache (R377): its number (device address / 256), the context whose way holds it, its marks. -/
structure Line where
  num : Nat
  ctx : Ctx
  dirty : Bool
  retained : Bool
  pinned : Bool
deriving DecidableEq, Repr

/-- A request that has merged with a fill (R379, R796): its requester, the context it allocates for, the marks it leaves. -/
structure Merged where
  who : Nat
  ctx : Option Ctx
  dirty : Bool
  retain : Bool
deriving DecidableEq, Repr

/-- A fill from HBM in progress (R379): its line, the context that its first request allocates for, the marks of that
request, and the requests merged with it. -/
structure Fill where
  num : Nat
  ctx : Option Ctx
  dirty : Bool
  retain : Bool
  merged : List Merged := []
deriving DecidableEq, Repr

/-- What a withy delivery carries (R350). -/
inductive WithyBody where
  | store (addr : Nat) (bytes : List Byte) (bad : List Nat)
  | msg (core q : Nat) (words : List (Nat × Bool))
  /-- A store or a message for an endpoint of another module, at the stop of its cluster (R292). -/
  | storeAway (ep addr : Nat) (bytes : List Byte) (bad : List Nat)
  | msgAway (ep q : Nat) (words : List (Nat × Bool))
deriving DecidableEq, Repr

/-- A withy delivery on its way inside the module (R487): its source, a context on a core. -/
structure WithyItem where
  src : Nat × Ctx
  body : WithyBody
deriving DecidableEq, Repr

/-- An extent of a DMA list (R471), with the index of its entry. -/
structure Extent where
  addr : Nat
  len : Nat
  remote : Bool
  chint : Nat
  fence : Bool
  entry : Nat
deriving DecidableEq, Repr

/-- A DMA list: its address and number of entries. -/
structure DmaList where
  addr : Nat
  nent : Nat
deriving DecidableEq, Repr

/-- A burst issued and not yet complete: its list's bytes, where they go, which are poisoned, and for a remote target the
number of the request that carries it. -/
structure Burst where
  ext : Extent
  off : Nat
  bytes : List Byte
  bad : List Nat
  req : Option Nat := none
  /-- In flight when its channel was told to abort (R720, R797). -/
  told : Bool := false
deriving DecidableEq, Repr

/-- A channel's register set (R469, R473, R476, R483): the list in progress. -/
structure DmaRun where
  list : DmaList
  cfg : W32
  sig : W32
  total : Nat := 0
  /-- Entries read. -/
  fetched : Nat := 0
  /-- Source extents read and not yet consumed, and the position in the first. -/
  allSrcs : List Extent := []
  allDsts : List Extent := []
  srcs : List Extent := []
  srcPos : Nat := 0
  dsts : List Extent := []
  dstPos : Nat := 0
  /-- Sums of the source and destination lengths read. -/
  srcTotal : Nat := 0
  dstTotal : Nat := 0
  /-- Destination bytes issued, and completed. -/
  moved : Nat := 0
  done : Nat := 0
  half : Bool := false
  /-- The rate accumulator, and the instant to which it is counted. -/
  acc : Nat := 512
  accAt : Nat := 0
  bursts : List Burst := []
  /-- Source bytes that a remote read has returned, and the request outstanding for more. -/
  inbuf : List (Byte × Bool) := []
  readReq : Option Nat := none
  /-- Of the bytes that the outstanding read returns: how many precede the extent, and how many are kept (R478). -/
  readSkip : Nat := 0
  readKeep : Nat := 0
  /-- The device address of the outstanding read at its target (R786). -/
  readAt : Nat := 0
deriving DecidableEq, Repr

/-- A DMA channel (R476): the register set and the shadow set. An aborted list whose bursts are not complete is in
`flying`. -/
structure Chan where
  cur : Option DmaRun := none
  shadow : Option DmaList := none
  flying : List Burst := []
  /-- The remote reads that were outstanding when the channel was told to abort (R797). -/
  toldReads : List Nat := []
deriving DecidableEq, Repr

/-- A shared port's arbiter (R495 to R499): inputs backing off until an instant with their count of consecutive losses,
the grant in force with its remaining bursts, and the winner drawn for the next boundary. -/
structure Arb where
  losses : Tab Nat := []
  resumeAt : Tab Nat := []
  grant : Option (Nat × Nat) := none
  drawn : Option (Nat × List Nat) := none
  /-- The requesters of the grant in force and of the winner drawn (R796). -/
  grantTo : Option ArbWho := none
  drawnTo : Option ArbWho := none
  /-- ARBCFG.GRANTMAX at the decision that drew the winner (R724). -/
  drawnMax : Nat := 0
  /-- The input of the latest scheduled burst (R494). -/
  lastSched : Option Nat := none
deriving DecidableEq, Repr

/-- The loader at work (R404 to R406, R414): the context, whether an unload comes first, whether a load follows. -/
structure Loader where
  ctx : Ctx
  addr : Nat
  unload : Bool
  load : Bool
deriving DecidableEq, Repr

/-- A flit (R591): its header, its 240 payload bytes, and the port in whose input buffer it still stands, if it came through
one (R600). -/
structure Flit where
  hdr : W128
  payload : List Byte
  inPort : Option Nat
deriving DecidableEq, Repr

/-- Who waits for the answer to a remote request (R597, R599). -/
inductive ReqWho where
  | dmaWrite (ch : Nat)
  | dmaRead (ch : Nat)
  | withy (core : Nat) (ctx : Ctx)
  /-- One of the two flits of a store, with the number of the other request. -/
  | withyPart (core : Nat) (ctx : Ctx) (mate : Nat)
  /-- A store's second flit whose refusal the first one's has counted. -/
  | counted
  | message (core : Nat) (ctx : Ctx)
deriving DecidableEq, Repr

/-- A remote request that has had no response (R599): number, type, destination endpoint, its ADDR (or MQ or CTR), bytes
asked for, the instant it left the module, its EPOCH and VC; `old` says that the route tables have advanced since (R615). -/
structure Remote where
  id : Nat
  typ : Nat
  dst : Nat
  key : Nat
  len : Nat
  sentAt : Option Nat
  epoch : Nat
  vc : Nat
  who : ReqWho
  old : Bool := false
deriving DecidableEq, Repr

/-- An Ibcia port beside its registers (R600 to R624). -/
structure Port where
  /-- The next LSEQ to send, and the flits kept in the replay buffer with the instants they were sent. -/
  nextSeq : Nat := 0
  replay : List (Flit × Nat) := []
  /-- Kept flits being sent again after a NAK (R619). -/
  resend : List Flit := []
  /-- Flits waiting to be sent, by virtual channel. -/
  tx : Tab (List Flit) := []
  /-- A LINK flit is due, and it carries a NAK. -/
  linkDue : Bool := false
  nakDue : Bool := false
  /-- The expected LSEQ; a loss has been seen and the expected flit has not arrived; when the latest NAK was asked for. -/
  expect : Nat := 0
  lost : Bool := false
  nakAt : Nat := 0
  /-- Flits in the input buffers, by virtual channel, and the XOFF mask sent to the peer. -/
  rx : Tab Nat := []
  xoff : Nat := 0
  /-- The peer's mask in force at the transmitter, and the masks that have arrived since, each with the flit boundaries
  until it takes effect (R601). -/
  held : Nat := 0
  heldIn : List (Nat × Nat) := []
  /-- Flits sent while an unscheduled flit waited (R603). -/
  passed : Nat := 0
  /-- Instants of the uncorrectable codewords of the latest millisecond (R622). -/
  uncs : List Nat := []
  /-- Training-limit returns in a row, and the instant the state was entered (R622). -/
  returns : Nat := 0
  since : Nat := 0
  /-- ALIGN follows a step to Gen2, or a retrain (R621). -/
  gen2Step : Bool := false
  retraining : Bool := false
  /-- The port has left ACTIVE since it last was there (R608). -/
  left : Bool := false
deriving DecidableEq, Repr

/-- An adder slot (R643): its instance (I/O die, table, group, tag), its OFFSET, 60 elements, count, arrival mask, poison. -/
structure ASlot where
  iod : Nat
  tbl : Nat
  grp : Nat
  tag : Nat
  off : Nat
  elems : List W32
  cnt : Nat
  mask : Nat
  poison : Bool
deriving DecidableEq, Repr

/-- What has been delivered of an instance at a root or a member (R653 to R659): tag, offsets delivered, lowest and
highest count, and the flags of the result record. -/
structure Deliv where
  tag : Nat
  stepTag : Nat := 0
  got : List Nat := []
  minCnt : Nat := 65535
  maxCnt : Nat := 0
  nf : Bool := false
  short : Bool := false
  empty : Bool := false
  poison : Bool := false
  cut : Bool := false
  nEmpty : Nat := 0
  nLate : Nat := 0
  /-- Device time of the close, in ns. -/
  closedAt : Nat := 0
deriving DecidableEq, Repr

/-- A group entry's instance state (R648): the open instance with its effective mask and the inputs removed from it (R649),
and LASTTAG. Log entry 4, DESIGN CHOICE. -/
structure Inst where
  opn : Option Deliv := none
  mask : Nat := 0
  removed : Nat := 0
  last : Option Nat := none
  /-- A root instance that has closed and whose result record is not yet written (R655). -/
  closing : Option Deliv := none
deriving DecidableEq, Repr

/-- An active local send (R639 to R641), with its flits that are not yet injected (R679). -/
structure Send where
  ctx : Ctx
  grp : Nat
  iod : Nat
  rest : List Flit := []
deriving DecidableEq, Repr

/-- A return entry's state (R664 to R666): the latched status word, bytes received. -/
structure RetS where
  armed : Bool := false
  complete : Bool := false
  stale : Bool := false
  received : Nat := 0
  status : Option W64 := none
deriving DecidableEq, Repr

/-- The step unit beside its registers (R516, R520 to R530). -/
structure StepS where
  num : W64 := 0
  app : W64 := 0
  /-- Device time of the latest commit, in ns, and whether one has been made since context T was loaded. -/
  commitAt : Nat := 0
  committed : Bool := false
  /-- The Round number at which the vote in progress was triggered, then that at which it was sent. -/
  voteAt : Option W64 := none
  /-- The vote that the trigger has made (R520, R642). -/
  vote : W32 := 0
  /-- The vote's result: V and C. -/
  result : Option (W32 × Nat) := none
  /-- The status words of the latest commits by step tag, to be compared (R530), latest first. -/
  commits : List W64 := []
  /-- Step-status words that came before their commit. -/
  early : List W64 := []
deriving DecidableEq, Repr

/-- The ledger unit's configuration, fixed while context D is loaded (R578, R580). -/
structure LedCfg where
  dcores : List Nat := []
  ringBase : Nat := 0
  ringEnt : Nat := 0
  tailAddr : Nat := 0
  laneBase : Nat := 0
  outBase : Nat := 0
  outEnt : Nat := 0
  sigBase : Nat := 0
  sigEnt : Nat := 0
  bq : Nat := 0
  hist : Nat := 0
  batchMax : Nat := 0
  lcBase : Nat := 0
  doneBase : Nat := 0
  slots : Nat := 1
  sigPer : Nat := 1000
deriving DecidableEq, Repr

/-- A batch: the Round number of its cut, its events, whether they are hashed, the snapshot of its lane counters at the
close of its deadline window (R559), and whether it is complete and its records delivered (R557, R566). -/
structure LBatch where
  rnd : Nat
  first : Nat
  count : Nat
  hashed : Bool := false
  snap : Option (List Nat) := none
  done : Bool := false
  delivered : Bool := false
deriving DecidableEq, Repr

/-- A ledger block (R567, R568): a number that tells it from the others not yet sealed, the seal's fields, and the record bytes
delivered so far. -/
structure LBlock where
  id : Nat := 0
  rnd : Nat
  flags : Nat := 0
  nrec : Nat := 0
  first : Option Nat := none
  evFirst : Nat := 0
  evCount : Nat := 0
  idig : Option (List Byte) := none
  dtime : Nat := 0
  bytes : List Byte := []
deriving DecidableEq, Repr

/-- What waits to be delivered, in order (R564, R566, R567): a record (its block's number, core, lane, bank, slot, LATE, LSEQ,
its batch's Round), the end of a batch's records, and the seal of a closed block. -/
inductive LItem where
  | record (blk core lane bank slot : Nat) (late : Bool) (lseq rnd : Nat)
  | batchEnd (rnd : Nat)
  | seal (blk : Nat)
deriving DecidableEq, Repr

/-- The ledger unit beside its registers (R548 to R576). -/
structure Led where
  live : Bool := false
  cfg : LedCfg := {}
  suspended : Bool := false
  /-- The next block carries START. -/
  start : Bool := false
  nextLseq : Nat := 0
  cutEnd : Nat := 0
  outProd : Nat := 0
  sigProd : Nat := 0
  batches : List LBatch := []
  /-- Blocks not yet sealed, oldest first; the last is the open one while context D is loaded and Rounds run. -/
  blocks : List LBlock := []
  queue : List LItem := []
  /-- Delivery waits for room in the output ring. -/
  waiting : Bool := false
  prev : List Byte := []
  mdig : List Byte := []
  chain : List Byte := []
  /-- RNDNUM, NEXTLSEQ and DTIME of the latest seal. -/
  sealRnd : Nat := 0
  sealNext : Nat := 0
  sealTime : Nat := 0
  heads : Nat := 0
  /-- The head statement being signed. -/
  signing : Option (List Byte) := none
  /-- The instant of the load, and the number of the next signing instant (R571). -/
  loadAt : Nat := 0
  nextSig : Nat := 1
deriving DecidableEq, Repr

/-- A requester's wide-value mailbox at a block (R708): SEL with WR, the two halves, the latest operation's outcome, whether
an operation is in progress, and whether a write was ignored meanwhile (R712). -/
structure Mbox where
  sel : W32 := 0
  lo : W32 := 0
  hi : W32 := 0
  valid : Bool := false
  err : Bool := false
  code : Nat := 0
  busy : Bool := false
  ovr : Bool := false
deriving DecidableEq, Repr

/-- Power management beside its registers (R819 to R835). -/
structure PowerS where
  /-- Each die's cap point, thermal point, and the point it now runs at (R821, R822). -/
  cap : Tab Nat := []
  thermal : Tab Nat := []
  present : Tab Nat := []
  /-- Each die's VCD voltage, in mV (R822). -/
  volt : Tab Nat := []
  /-- The instant from which a die's next step of a rise runs (R822). -/
  riseAt : Tab (Option Nat) := []
  /-- The brake limit is in force, its HOLD included; the instant of the release (R828). -/
  limit : Bool := false
  holdAt : Option Nat := none
  /-- Measurements of the present interval: their sum and number; intervals in a row at or below CAP − 100 W (R825). -/
  sum : Nat := 0
  count : Nat := 0
  low : Nat := 0
  /-- Sensors that have failed, as a mask; the alert condition held at the latest sample (R832, R834). -/
  failed : Nat := 0
  alerting : Bool := false
  /-- THERMTRIP_N is latched low (R835). -/
  tripped : Bool := false
  /-- The HBM3E stacks are in self-refresh (R759, R794). -/
  selfRefresh : Bool := false
deriving DecidableEq, Repr

/-- A flash operation under way (R838): the flash, the byte address, and the bytes to program (none: an erase). -/
structure FlashOp where
  slot : Nat
  addr : Nat
  data : Option (List Byte)
deriving DecidableEq, Repr

/-- The DOE mailbox (R762 to R767): the requester's DataTransferSize; the signing hash of the response just sent, when it was
signed; whether its companion has been asked for and is signed; a large request as received so far with its next chunk
number; a large response, and its handle; the messages exchanged that a signature covers (R764): the version, capabilities and
algorithms, the digests and certificates since, and the measurements not yet signed. -/
structure Spdm where
  xfer : Nat := 0
  signed : Option (List Byte) := none
  asked : Bool := false
  ready : Bool := false
  chunkIn : List Byte := []
  inNext : Nat := 0
  chunkOut : List Byte := []
  handle : Nat := 0
  vca : List Byte := []
  certs : List Byte := []
  meas : List Byte := []
deriving DecidableEq, Repr

/-- The sideband (R853 to R856): its dynamic address, its instance of the management mailbox (R768), and the response not yet
read: STATUS and payload. -/
structure Sideband where
  dyn : Option Nat := none
  op : Nat := 0
  req : List Byte := []
  busy : Bool := false
  resp : Option (Nat × List Byte) := none
deriving DecidableEq, Repr

/-- Staged start and security beside the registers (R733 to R768). -/
structure StageS where
  /-- Base is complete; 54 V is good. -/
  base : Bool := false
  in54 : Bool := false
  /-- Upsett has begun since the rails came up, so the silicon that they power reports (R776). -/
  begun : Bool := false
  /-- The instant from which the bounds of Upsett and Siding run: 54 V good, or step 3 of a warm reset (R41, R759). -/
  good54 : Nat := 0
  /-- The fused counters (R749). -/
  fw : Nat := 0
  kg : Nat := 0
  /-- Flash pages of 256 bytes that have been erased or programmed: flash × 2^19 + page (R838). -/
  flash : Tab (List Byte) := []
  flop : Option FlashOp := none
  /-- BOOTCTL.PREF as sampled by the latest warm reset (R741). -/
  pref : Nat := 0
  /-- The system-configuration record of the running image, as verified (R743, R745). -/
  sysRec : List Byte := []
  /-- The derived keys are in the MSP's memory (R751, R794), and the certificate chains in use, by slot (R752, R762). -/
  keys : Bool := false
  chains : Tab (List Byte) := []
  /-- The recorded measurements (R760); those not listed are read from other state. -/
  meas : Tab (List Byte) := []
  /-- The instant of DEVSTOP with the WRDLY read then (R791). -/
  stopAt : Option (Nat × Nat) := none
  /-- Instants of the fences not yet reclaimed: kind × 128 + index (R797). -/
  fencedAt : Tab (Option Nat) := []
  /-- Since when a party, keyed so, has been told to end work that is still in flight (R797). -/
  toldAt : Tab (Option Nat) := []
  /-- Mailbox commands waiting, in the order of their arrival (R768). -/
  mbq : List MbPath := []
  spdm : Spdm := {}
  sb : Sideband := {}
deriving DecidableEq, Repr

/-- The state of the module. -/
structure State where
  /-- Commands waiting, first in first out. -/
  pending : List Instr := []
  /-- Registers of BAR0 by offset; an unlisted one holds its reset value. -/
  regs : Tab W32 := []
  /-- Staged values of RWS fields by register offset: value and mask of staged bits (R713). -/
  shadow : Tab (W32 × W32) := []
  /-- Memory by device address (R368): HBM3E, local stores, CXL. -/
  mem : List Host.Cell := []
  /-- Poisoned 32-bit words of that memory, by device address / 4, rising (R398). -/
  poison : List Nat := []
  /-- Shared-cache sets, most recently used line first: region × 65,536 + set. -/
  cache : Tab (List Line) := []
  fills : List Fill := []
  /-- Scrubber rewrite queues, by base die, oldest first (R396): the storage's detector, its unit, the word's address there
  (R786). -/
  rewrites : Tab (List (Nat × Nat × Nat)) := []
  /-- 64-bit values behind the mailboxes that are plain storage: block × 65,536 + selector (R708). -/
  wide : Tab W64 := []
  /-- Wide-value mailboxes: block × 4 + requester (R712). -/
  mboxes : Tab Mbox := []
  /-- EPBASE has been written (R589). -/
  epSet : Bool := false
  /-- PERST# is asserted. -/
  perst : Bool := false
  /-- Withy deliveries under way, oldest first, and refusals on their way back (R489, R490). -/
  withy : List WithyItem := []
  withyErrs : List (Nat × Ctx) := []
  /-- R292: the core of a cluster's stop whose turn is next in a virtual channel: cluster × 4 + channel. -/
  stopTurn : Tab Nat := []
  chans : Tab Chan := []
  /-- MSI-X: table words, vector × 4 + word; pending vectors; the enable and function mask (R698). -/
  msixTab : Tab W32 := []
  msixPend : List Nat := []
  msixOn : Bool := false
  msixMask : Bool := false
  /-- Configuration registers that hold what was written, by offset: the command word, the BARs; at 0x1000 BAR2's size as the
  power of two of its GiB. -/
  cfgRegs : Tab W32 := []
  arbs : Tab Arb := []
  loader : Option Loader := none
  /-- Contexts whose unload waits for their work in flight (R406, R726), as a mask. -/
  unloads : Nat := 0
  /-- Route entries: (I/O die × 2 + table) × 2^20 + endpoint; multicast entries: (I/O die × 2 + table) × 4,096 + group;
  group-entry words: ((I/O die × 2 + table) × 4,096 + group) × 3 + word (R606, R609, R633). -/
  routes : Tab W16 := []
  mcast : Tab W16 := []
  groups : Tab W32 := []
  ports : Tab Port := []
  /-- Remote requests without a response, oldest first, and the number of the next. -/
  remotes : List Remote := []
  nextReq : Nat := 0
  /-- New-epoch unscheduled flits held back, with their I/O dies and requesters (R615). -/
  epochHold : Bool := false
  held : List (Nat × Flit × ReqWho × Nat) := []
  /-- First parts of messages joined by MORE: source endpoint, core, queue, words (R595). -/
  msgParts : List (Nat × Nat × Nat × List (Nat × Bool)) := []
  /-- The Round number of the latest route-epoch advance (R628). -/
  advancedAt : W64 := 0
  /-- Adder slots in use, by port; RED flits waiting for a slot, with I/O die and input (R643, R646). -/
  adders : Tab (List ASlot) := []
  redWait : List (Nat × Nat × Flit) := []
  /-- Instances: (I/O die × 2 + table) × 4,096 + group. -/
  insts : Tab Inst := []
  /-- All-reduce returns in progress at this member, by group × 65,536 + tag, and by group the tag plus 1 of the latest that
  has closed (R659). -/
  returns : Tab Deliv := []
  returned : Tab Nat := []
  sends : List Send := []
  /-- Triggered local sends that wait (R641, R679). -/
  sendPend : List (Ctx × Nat) := []
  rets : Tab RetS := []
  /-- Binding and return-entry images, as loaded: context × 4,096 + group, and entry (R637, R663). -/
  bindings : Tab (List Byte) := []
  retEnts : Tab (List Byte) := []
  step : StepS := {}
  /-- Loss-scale latch of each core (R518). -/
  lsLatch : Tab Byte := []
  led : Led := {}
  pw : PowerS := {}
  sec : StageS := {}
  clk : Clock := {}
  round : RoundS := {}
  jobD : Option Job := none
  jobT : Option Job := none
  ctrs : Tab Ctr := []
  cores : Tab CoreS := []
  /-- Fast-barrier slots: cluster × 16 + slot. -/
  fb : Tab FbSlot := []
  /-- Arithmetic cycles of each die, in units of 10^-4 cycle. -/
  cycles : Tab Nat := []
  /-- Reports on their way to the Fault Hub, oldest first (R774). -/
  reports : List Report := []
  /-- Addresses and timestamps of the captures, by class (R815). -/
  captures : Tab Capture := []
  /-- Parties fenced in service (R798, R799, R815): cores, channels, ports, as masks. -/
  fenceCores : Nat := 0
  fenceChans : Nat := 0
  fencePorts : Nat := 0
  /-- Addresses of the injection slots (R816). -/
  injAddr : Tab Nat := []
  /-- The point that each slot has armed: INJSEL and the address as they were at the ARM (R805). -/
  injPoint : Tab (W32 × Nat) := []
  out : List Output := []
  reply : Reply := .none
  /-- How many free values have been used: the model's own field. -/
  freeIdx : Nat := 0

deriving DecidableEq, Repr

/-- The module before 3.3 V AUX: every register at its reset value, memory with nothing listed, no job, Rounds
STOPPED, nothing running (R725). Log entry 4, DESIGN CHOICE; 54, DESIGN CHOICE. -/
def State.reset : State := {}

end Sys2Proof.Machine
end

