-- ==== Sys2Proof/Machine/Ops.lean ====
section
/-! DEFINITION. Sys2Proof/Machine/Ops.lean: the named operations over tables, registers, memory, free values and
reports on which every meaning is built. -/

namespace Sys2Proof.Machine

/-! ## Sparse tables -/

/-- The entry of `k`, or `d`. -/
def tget {α : Type} (d : α) : Tab α → Nat → α
  | [], _ => d
  | (k', v) :: r, k => if k' = k then v else tget d r k

/-- Removal of `k`. -/
def tdel {α : Type} : Tab α → Nat → Tab α
  | [], _ => []
  | (k', v) :: r, k => if k' = k then tdel r k else (k', v) :: tdel r k

/-- Insertion of an entry that is not the default, keys rising. -/
def tins {α : Type} : Tab α → Nat → α → Tab α
  | [], k, v => [(k, v)]
  | (k', v') :: r, k, v =>
    if k < k' then (k, v) :: (k', v') :: r
    else if k = k' then (k, v) :: r
    else (k', v') :: tins r k v

/-- Writing `v` at `k`; the default removes the entry, so that equal tables are equal data. -/
def tput {α : Type} [DecidableEq α] (d : α) (t : Tab α) (k : Nat) (v : α) : Tab α :=
  if v = d then tdel t k else tins t k v

/-- Keys rise strictly and no entry is the default. -/
def tabWf {α : Type} [DecidableEq α] (d : α) : Tab α → Bool
  | [] => true
  | [(_, v)] => !decide (v = d)
  | (k, v) :: (k', v') :: r => decide (k < k') && !decide (v = d) && tabWf d ((k', v') :: r)

/-- A rising list of numbers as a set. -/
def nins : List Nat → Nat → List Nat
  | [], n => [n]
  | m :: r, n => if n < m then n :: m :: r else if n = m then m :: r else m :: nins r n
def ndel (l : List Nat) (n : Nat) : List Nat := l.filter (· != n)

/-- An index list from 0 to n − 1, rising. -/
def upto (n : Nat) : List Nat := List.range n

/-! ## Bits and bytes -/

/-- Bits [lo + w − 1:lo] of a number. -/
def bitsOf (n lo w : Nat) : Nat := n / 2 ^ lo % 2 ^ w
def bitOf (n lo : Nat) : Bool := n / 2 ^ lo % 2 == 1
/-- The signed value of the low `w` bits. -/
def signedOf (n w : Nat) : Int :=
  let x := n % 2 ^ w
  if 2 * x < 2 ^ w then (x : Int) else (x : Int) - (2 ^ w : Nat)
/-- Replacement of bits [lo + w − 1:lo]. -/
def setBits (n lo w v : Nat) : Nat := n % 2 ^ lo + v % 2 ^ w * 2 ^ lo + n / 2 ^ (lo + w) * 2 ^ (lo + w)
/-- Little-endian bytes (R14). -/
def leBytes : Nat → Nat → List Byte
  | 0, _ => []
  | k + 1, n => BitVec.ofNat 8 n :: leBytes k (n / 256)
def ofLe : List Byte → Nat
  | [] => 0
  | b :: r => b.toNat + 256 * ofLe r
/-- Big-endian bytes, for the fields a standard keeps so. -/
def beBytes (k n : Nat) : List Byte := (leBytes k n).reverse
def popcount : Nat → Nat → Nat
  | 0, _ => 0
  | k + 1, n => n % 2 + popcount k (n / 2)
/-- ceil(n / d). -/
def cdiv (n d : Nat) : Nat := (n + d - 1) / d
/-- The numbers of the set bits below `k`, rising. -/
def bitList (k n : Nat) : List Nat := (upto k).filter (bitOf n)
/-- A byte list padded with zeros, or cut, to a length. -/
def fitBytes (k : Nat) (l : List Byte) : List Byte := (l ++ List.replicate k 0).take k

/-! ## The register file of BAR0 -/

/-- The registers of a kind of block. -/
def specsOf : Block → List RegSpec
  | .host => map_host | .round => map_round | .memory => map_memory | .training => map_training
  | .ledger => map_ledger | .collective => map_collective | .fabric => map_fabric | .dma => map_dma
  | .faultHub => map_faultHub | .power => map_power | .security => map_security | .test => map_test
  | .sync => map_sync | .region => map_region | .cluster => map_cluster | .core => map_core

/-- Where a BAR0 offset lies (R732): block number, kind, instance, offset in the block. -/
structure Place where
  num : Nat
  kind : Block
  inst : Nat
  off : Nat
deriving DecidableEq, Repr

/-- R732: the block of an offset; none where no block lies. -/
def locate (off : Nat) : Option Place :=
  if off < 0x10000 then some ⟨0, .host, 0, off⟩
  else if off < 0x11000 then some ⟨1, .round, 0, off - 0x10000⟩
  else if off < 0x12000 then some ⟨2, .memory, 0, off - 0x11000⟩
  else if off < 0x13000 then some ⟨3, .training, 0, off - 0x12000⟩
  else if off < 0x14000 then some ⟨4, .ledger, 0, off - 0x13000⟩
  else if off < 0x15000 then some ⟨5, .collective, 0, off - 0x14000⟩
  else if off < 0x18000 then none
  else if off < 0x1A000 then some ⟨6, .fabric, 0, off - 0x18000⟩
  else if off < 0x1C000 then none
  else if off < 0x20000 then some ⟨7, .dma, 0, off - 0x1C000⟩
  else if off < 0x30000 then some ⟨8, .faultHub, 0, off - 0x20000⟩
  else if off < 0x40000 then some ⟨9, .power, 0, off - 0x30000⟩
  else if off < 0x50000 then some ⟨10, .security, 0, off - 0x40000⟩
  else if off < 0x60000 then some ⟨11, .test, 0, off - 0x50000⟩
  else if off < 0x100000 then none
  else if off < 0x140000 then
    some ⟨12 + (off - 0x100000) / 0x10000, .sync, (off - 0x100000) / 0x10000, off % 0x10000⟩
  else if off < 0x148000 then
    some ⟨16 + (off - 0x140000) / 0x1000, .region, (off - 0x140000) / 0x1000, off % 0x1000⟩
  else if off < 0x150000 then none
  else if off < 0x152000 then
    some ⟨24 + (off - 0x150000) / 0x100, .cluster, (off - 0x150000) / 0x100, off % 0x100⟩
  else if off < 0x200000 then none
  else if off < 0x280000 then
    some ⟨56 + (off - 0x200000) / 0x1000, .core, (off - 0x200000) / 0x1000, off % 0x1000⟩
  else none

/-- The offset lies on a register of the spec's dimensions: the remaining offset is used up by them. -/
def onDims : List (Nat × Nat) → Nat → Bool
  | [], o => o == 0
  | (stride, count) :: r, o => decide (o / stride < count) && onDims r (o % stride)

/-- The register of a list at a block offset. -/
def findSpec (l : List RegSpec) (o : Nat) : Option RegSpec :=
  l.find? fun r => decide (r.off ≤ o) && onDims r.dims (o - r.off)

/-- The register at a BAR0 offset. -/
def regSpec (off : Nat) : Option RegSpec :=
  match locate off with
  | none => none
  | some p => findSpec (specsOf p.kind) p.off

def fieldsReset : List FieldSpec → Nat
  | [] => 0
  | f :: r => f.reset % 2 ^ f.w * 2 ^ f.lo + fieldsReset r

/-- The value a register holds after reset; 0 where no register lies (R700). -/
def resetWord (off : Nat) : W32 :=
  match regSpec off with
  | none => 0
  | some r => BitVec.ofNat 32 (fieldsReset r.fields)

/-- The register word held at an offset. Log entry 9, DEDUCED. -/
def State.rd (s : State) (off : Nat) : W32 := tget (resetWord off) s.regs off
def State.wr (s : State) (off : Nat) (v : W32) : State :=
  { s with regs := tput (resetWord off) s.regs off v }

/-- A field's value. -/
def State.fget (s : State) (f : Fld) : Nat := bitsOf (s.rd f.off).toNat f.lo f.w
def State.fbit (s : State) (f : Fld) : Bool := s.fget f != 0
/-- Writing a field. -/
def State.fset (s : State) (f : Fld) (v : Nat) : State :=
  s.wr f.off (BitVec.ofNat 32 (setBits (s.rd f.off).toNat f.lo f.w v))
/-- Setting the bits of `v` in a field. -/
def State.forr (s : State) (f : Fld) (v : Nat) : State := s.fset f (s.fget f ||| v)
/-- Adding to an event counter, which saturates (R454). -/
def State.bumpBy (s : State) (off n : Nat) : State :=
  s.wr off (BitVec.ofNat 32 (min 0xFFFFFFFF ((s.rd off).toNat + n)))
def State.bump (s : State) (off : Nat) : State := s.bumpBy off 1
/-- Clearing registers. -/
def State.clear (s : State) (offs : List Nat) : State := offs.foldl (fun s o => s.wr o 0) s

/-! ## Free values -/

/-- Log entry 8, DESIGN CHOICE. -/
def State.freeByte (s : State) : Byte × State := (Config.freeByte s.freeIdx, { s with freeIdx := s.freeIdx + 1 })
/-- Log entry 8, DESIGN CHOICE. -/
def State.freeWord (s : State) : W32 × State := (Config.freeWord s.freeIdx, { s with freeIdx := s.freeIdx + 1 })
/-- Log entry 8, DESIGN CHOICE. -/
def State.freeNat (s : State) : Nat × State := (Config.freeNat s.freeIdx, { s with freeIdx := s.freeIdx + 1 })
/-- Log entry 8, DESIGN CHOICE. -/
def State.freeBool (s : State) : Bool × State := (Config.freeBool s.freeIdx, { s with freeIdx := s.freeIdx + 1 })
/-- A run of unspecified bytes. Log entry 8, DESIGN CHOICE. -/
def State.freeBytes (s : State) (n : Nat) : List Byte × State :=
  ((upto n).map fun k => Config.freeByte (s.freeIdx + k), { s with freeIdx := s.freeIdx + n })

/-! ## Contexts, jobs, cores -/

def State.job (s : State) : Ctx → Option Job
  | .d => s.jobD
  | .t => s.jobT
def State.setJob (s : State) (x : Ctx) (j : Option Job) : State :=
  match x with
  | .d => { s with jobD := j }
  | .t => { s with jobT := j }
def State.loaded (s : State) (x : Ctx) : Bool := (s.job x).isSome
def State.anyJob (s : State) : Bool := s.loaded .d || s.loaded .t
def ctxParty : Ctx → Party
  | .d => .d
  | .t => .t
def ctxNum : Ctx → Nat
  | .d => 0
  | .t => 1
def other : Ctx → Ctx
  | .d => .t
  | .t => .d
def optParty : Option Ctx → Party
  | none => .none
  | some x => ctxParty x

/-- The record of a type and index in a manifest. -/
def Job.rec? (j : Job) (typ idx : Nat) : Option Rec := j.recs.find? fun r => r.typ == typ && r.idx == idx
/-- The declared range (first, count) of a type and index; (0, 0) without a record. -/
def Job.range (j : Job) (typ idx : Nat) : Nat × Nat :=
  match j.rec? typ idx with
  | none => (0, 0)
  | some r => (r.v0, r.v1)
def Job.has (j : Job) (typ idx : Nat) : Bool := (j.rec? typ idx).isSome
def State.jrange (s : State) (x : Ctx) (typ idx : Nat) : Nat × Nat :=
  match s.job x with
  | none => (0, 0)
  | some j => j.range typ idx
def State.jhas (s : State) (x : Ctx) (typ idx : Nat) : Bool :=
  match s.job x with
  | none => false
  | some j => j.has typ idx
/-- The manifest of the context names the core (records of type 0x03). -/
def State.named (s : State) (x : Ctx) (c : Nat) : Bool := s.jhas x 0x03 c

def State.core (s : State) (c : Nat) : CoreS := tget {} s.cores c
def State.setCore (s : State) (c : Nat) (k : CoreS) : State := { s with cores := tput {} s.cores c k }
def CoreS.ctx (k : CoreS) : Ctx → CoreCtx
  | .d => k.d
  | .t => k.t
def CoreS.setCtx (k : CoreS) (x : Ctx) (h : CoreCtx) : CoreS :=
  match x with
  | .d => { k with d := h }
  | .t => { k with t := h }
/-- The context's part of a core. -/
def State.cc (s : State) (c : Nat) (x : Ctx) : CoreCtx := (s.core c).ctx x
def State.setCc (s : State) (c : Nat) (x : Ctx) (h : CoreCtx) : State :=
  s.setCore c ((s.core c).setCtx x h)
def dieOf (c : Nat) : Nat := c / 32
def clusterOf (c : Nat) : Nat := c / 4

/-! ## Device time -/

/-- Device time in tenths of a nanosecond, and in whole ns (R45). -/
def State.devTenths (s : State) : Nat := ((s.clk.tenths : Int) + s.clk.base).toNat
/-- The clock's count at an instant of device time, given in ns. -/
def State.tenthsAt (s : State) (ns : Nat) : Nat := ((ns * 10 : Nat) - s.clk.base).toNat
def State.now (s : State) : Nat := s.devTenths / 10 % 2 ^ 64
/-- Cycles of a die's arithmetic clock so far. -/
def State.dieCycles (s : State) (die : Nat) : Nat := tget 0 s.cycles die / 10000
/-- The Round tag (R48). -/
def State.rtag (s : State) : Nat := s.round.num.toNat % 65536

/-! ## Reports -/

/-- R773: the collector of the silicon on which a detector sits. -/
def collOf (det unit : Nat) : Nat :=
  let core := min 3 (unit / 32)
  match det with
  | 0x06 | 0x19 | 0x1A | 0x28 => min 3 unit
  | 0x08 | 0x09 | 0x0A | 0x0B | 0x0C | 0x11 | 0x12 | 0x13 | 0x14 | 0x16 | 0x17 | 0x22 | 0x29 | 0x2A | 0x31 => core
  | 0x10 => min 3 (unit / 64)
  | 0x15 => min 3 (unit / 256)
  | 0x18 | 0x20 => min 3 (unit / 2)
  | 0x1B => 4 + min 1 (unit / 2)
  | 0x1C | 0x41 | 0x42 => 4 + min 1 (unit / 12)
  | 0x21 => 4 + min 1 (unit / 2)
  | 0x30 => if unit < 64 then unit / 16 else 4 + min 1 ((unit - 64) / 16)
  | 0x40 => if unit < 24 then 4 + unit / 12 else 4 + min 1 (unit - 24)
  | 0x4B => min 5 unit
  | 0x01 | 0x02 =>
    -- the unit is a block number: the sync, region, cluster and core blocks lie on dies (R732)
    if unit < 12 then 4 else if unit < 16 then unit - 12 else if unit < 24 then (unit - 16) / 2
    else if unit < 56 then (unit - 24) / 8 else min 3 ((unit - 56) / 32)
  | 0x4E => if 0x10 ≤ unit && unit ≤ 0x13 then unit - 0x10 else 4
  | _ => 4

/-- R588: the endpoint ID of a local index; the block bits read 0 until EPCFG.VALID (R785). -/
def State.endpoint (s : State) (loc : Nat) : Nat :=
  if s.fbit R.EPCFG_VALID then s.fget R.EPCFG_EPBASE * 256 + loc else loc

/-- R785: the local endpoint index of the requester whose work meets an error at a detector. Log entry 18, DEDUCED. -/
def masterOf (det unit : Nat) : Nat :=
  match det with
  | 0x08 | 0x09 | 0x0B | 0x0C | 0x11 | 0x12 | 0x13 | 0x14 | 0x16 | 0x17 | 0x29 | 0x31 => 0x80 + unit % 128
  | 0x10 => 0x80 + unit / 2 % 128
  | 0x15 => 0x80 + unit / 8 % 128
  | _ => 0

/-- A detector on the silicon of a collector makes a report (R773, R774): it joins the reports on their way to the Hub.
Log entry 18, DEDUCED. -/
def State.reportOn (s : State) (coll : Nat) (cls : Cls) (det unit cause : Nat) (party : Party) (acc addr master : Nat)
    (inj : Bool) : State :=
  { s with reports := s.reports ++ [{ cls := cls, det := det, unit := unit % 256, cause := cause % 256, party := party,
                                      acc := acc, coll := coll, master := master, addr := addr,
                                      time := s.now, cyc := s.clk.tenths / 5, inj := inj }] }
/-- A report of a detector whose unit tells its silicon. Log entry 18, DEDUCED. -/
def State.reportFrom (s : State) (cls : Cls) (det unit cause : Nat) (party : Party) (acc addr master : Nat)
    (inj : Bool) : State :=
  s.reportOn (collOf det unit) cls det unit cause party acc addr master inj
/-- Log entry 18, DEDUCED; 19, DESIGN CHOICE. -/
def State.report (s : State) (cls : Cls) (det unit cause : Nat) (party : Party) (acc addr : Nat) : State :=
  s.reportFrom cls det unit cause party acc addr (s.endpoint (masterOf det unit)) false
/-- R779, R802: Contained for the owning context, Notice when none owns the resource. -/
def State.reportOwned (s : State) (det unit cause : Nat) (own : Option Ctx) (acc addr : Nat) : State :=
  s.report (match own with | none => .notice | some _ => .contained) det unit cause (optParty own) acc addr
/-- The Notice of a refused write, strobe or mailbox operation on a block (detector 0x02). -/
def State.refusal (s : State) (block : Nat) (inj : Bool := false) : State :=
  s.reportFrom .notice 0x02 block 0x01 .none 9 0 (s.endpoint 0) inj

/-- Log entry 7, DESIGN CHOICE. -/
def State.emit (s : State) (o : Output) : State := { s with out := s.out ++ [o] }

/-! ## Injection points -/

/-- The point that a slot has armed: DET, UNIT, CAUSE, MATCH and address. -/
def State.point (s : State) (n : Nat) : W32 × Nat := tget (0, 0) s.injPoint n
/-- R805, R806: the slot is armed at the detector `det` of `unit`, for one of `causes`, at an address that `has` accepts.
Log entry 21, DEDUCED. -/
def State.armedFor (s : State) (det unit : Nat) (causes : List Nat) (has : Nat → Bool) (n : Nat) : Bool :=
  let p := s.point n
  let w := p.1.toNat
  s.fbit (R.INJSTAT_ARMED n) && bitsOf w 24 8 == det && bitsOf w 16 8 == unit % 256 && causes.contains (bitsOf w 8 8) &&
  (!bitOf w 1 || has p.2)
/-- R805, R806: the armed slot, if any, whose point is the detector `det` at `unit`, whose cause is one of `causes` and
whose address, where MATCH is set, is `addr`. -/
def State.armedSlot (s : State) (det unit : Nat) (causes : List Nat) (addr : Nat) : Option Nat :=
  (upto 16).find? (s.armedFor det unit causes (· == addr))
/-- R806: a slot's point has fired. -/
def State.fired (s : State) (n : Nat) : State := (s.fset (R.INJSTAT_ARMED n) 0).fset (R.INJSTAT_FIRED n) 1

/-- R806: the check of a detector at which an armed point fires: the cause, and the state with the slot FIRED.
Log entry 6, DESIGN CHOICE; 21, DEDUCED. -/
def State.probe (s : State) (det unit : Nat) (causes : List Nat) (addr : Nat) : Option Nat × State :=
  match s.armedSlot det unit causes addr with
  | none => (none, s)
  | some n => (some (bitsOf (s.point n).1.toNat 8 8), s.fired n)

/-- The check of a detector over many addresses: `first` is the first address checked, `has` tells the others.
Log entry 21, DEDUCED. -/
def State.probeIn (s : State) (det unit : Nat) (causes : List Nat) (first : Nat) (has : Nat → Bool) :
    Option (Nat × Nat) × State :=
  match (upto 16).find? (s.armedFor det unit causes has) with
  | none => (none, s)
  | some n =>
    let p := s.point n
    (some (bitsOf p.1.toNat 8 8, if bitOf p.1.toNat 1 then p.2 else first), s.fired n)

/-- Every point armed among the addresses of an access: for each the cause and the address, and the state.
Log entry 96, DEDUCED. -/
def State.probeAll (s : State) (det unit : Nat) (causes : List Nat) (first : Nat) (has : Nat → Bool) :
    Nat → List (Nat × Nat) × State
  | 0 => ([], s)
  | k + 1 =>
    let r := State.probeAll s det unit causes first has k
    match r.2.probeIn det unit causes first has with
    | (none, _) => r
    | (some p, s') => (r.1 ++ [p], s')

/-- R806, R807: the check of a detector that finds `real`, the cause if the event has come: the cause to report, the more
severe of the two where a point fires too, whether a point fired, and the state. `mild` tells the causes of class Notice. -/
def State.check (s : State) (det unit : Nat) (causes : List Nat) (addr : Nat) (mild : Nat → Bool) (real : Option Nat) :
    Option Nat × Bool × State :=
  match s.probe det unit causes addr, real with
  | (none, _), r => (r, false, s)
  | (some k, s'), none => (some k, true, s')
  | (some k, s'), some r => (some (if mild r && !mild k then k else r), true, s')
/-- The check whether a write, a strobe or a mailbox operation on a block is refused. -/
def State.gate (s : State) (block : Nat) (bad : Bool) (no : Bool → State → State) (yes : State → State) : State :=
  let r := s.check 0x02 block [1] 0 (fun _ => true) (if bad then some 1 else none)
  if r.1.isSome then no r.2.1 r.2.2 else yes r.2.2

/-- R396: the address of a corrected word joins the rewrite queue of its die, which holds 16. -/
def queueRewrite (s : State) (die det unit addr : Nat) : State :=
  let q := tget [] s.rewrites die
  if q.length < 16 then { s with rewrites := tput [] s.rewrites die (q ++ [(det, unit, addr)]) } else s
/-- R396: a corrected word of an on-chip memory of a core: its Corrected report and its address for rewrite. -/
def State.correctedWord (s : State) (det unit c : Nat) (party : Party) (acc addr : Nat) : State :=
  (queueRewrite s (dieOf c) det unit addr).reportFrom .corrected det unit 1 party acc addr (s.endpoint (0x80 + c)) true

/-- R224, R248, R396: what an armed point of a core's vector register or curve memory detector does when it fires: cause and
word index. -/
def coreWordFire (det c : Nat) (x : Ctx) (s : State) (p : Nat × Nat) : State :=
  if p.1 = 1 then s.correctedWord det c c (ctxParty x) 1 p.2
  else s.reportFrom .contained det c 2 (ctxParty x) 1 p.2 (s.endpoint (0x80 + c)) true

/-! ## Device memory -/

/-- The bytes of memory from a device address; an unlisted byte reads 0. Log entry 5, DESIGN CHOICE. -/
def cellsGet (m : List Host.Cell) (a n : Nat) : List Byte := (upto n).map fun k => tget 0 m (a + k)
def cellsPut (m : List Host.Cell) (a : Nat) : List Byte → List Host.Cell
  | [] => m
  | b :: r => cellsPut (tput 0 m a b) (a + 1) r
/-- The 32-bit words touched by n bytes from a. -/
def wordsOf (a n : Nat) : List Nat := if n = 0 then [] else (upto ((a + n - 1) / 4 - a / 4 + 1)).map (· + a / 4)

/-- Log entry 5, DESIGN CHOICE. -/
def State.ld (s : State) (a n : Nat) : List Byte := cellsGet s.mem a n
/-- Some word of the range is poisoned. -/
def State.poisoned (s : State) (a n : Nat) : Bool := (wordsOf a n).any s.poison.contains
/-- A write: whole words lose their poison, a word written in part keeps it (R398, R478). -/
def State.st (s : State) (a : Nat) (bs : List Byte) : State :=
  { s with
    mem := cellsPut s.mem a bs
    poison := s.poison.filter fun w => !(decide (a ≤ 4 * w) && decide (4 * w + 4 ≤ a + bs.length)) }
/-- A write of damaged data: every word it touches is poisoned. -/
def State.stPoison (s : State) (a : Nat) (bs : List Byte) : State :=
  { s with mem := cellsPut s.mem a bs, poison := (wordsOf a bs.length).foldl nins s.poison }
def State.stp (s : State) (a : Nat) (bs : List Byte) (p : Bool) : State :=
  if p then s.stPoison a bs else s.st a bs

/-- The canonical form of memory. -/
def Memory.wf (m : List Host.Cell) : Bool := tabWf (0 : Byte) m

/-- R368: the first device address of a core's local store, of a stack, of a root port. -/
def lsBase (c : Nat) : Nat := 0x8000000000 + c * 0x4000000
def stackBase (k : Nat) : Nat := k * 0xC00000000
def cxlBase (p : Nat) : Nat := 0x80000000000 + p * 0x20000000000
def hostBase : Nat := 0x800000000000

/-- Kinds of device address (R368). -/
inductive Tier where
  | hbm (stack : Nat)
  | ls (core : Nat)
  | cxl (port : Nat)
  | hostWin (entry : Nat)
deriving DecidableEq, Repr

/-- R368: the tier of a device address; none outside every listed range. -/
def tierOf (a : Nat) : Option Tier :=
  if a < 0x6000000000 then some (.hbm (a / 0xC00000000))
  else if a < 0x8000000000 then none
  else if a < 0x8200000000 then
    if (a - 0x8000000000) % 0x4000000 < 0x3000000 then some (.ls ((a - 0x8000000000) / 0x4000000)) else none
  else if a < 0x80000000000 then none
  else if a < 0x100000000000 then some (.cxl ((a - 0x80000000000) / 0x20000000000))
  else if a < 0x800000000000 then none
  else if a < 0xC00000000000 then some (.hostWin ((a - 0x800000000000) / 0x10000000000))
  else none

end Sys2Proof.Machine
end

