-- ==== Sys2Proof/Machine/Counters.lean ====
section
/-! DEFINITION. Sys2Proof/Machine/Counters.lean: sync counters, barriers, message and completion queues (R418 to R458).
A change is seen by every waiter at once: the latest instant R310 allows is 25 ns or 250 ns later. -/

namespace Sys2Proof.Machine

/-! ## Serial-number comparison -/

/-- R455: (a − b) mod 65,536. -/
def tagDiff (a b : Nat) : Nat := (a % 65536 + 65536 - b % 65536) % 65536
def tagFollows (a b : Nat) : Bool := decide (1 ≤ tagDiff a b) && decide (tagDiff a b ≤ 32767)
def tagPrecedes (a b : Nat) : Bool := decide (32768 ≤ tagDiff a b)

/-! ## Counters -/

def State.ctr (s : State) (n : Nat) : Ctr := tget {} s.ctrs n
def State.setCtr (s : State) (n : Nat) (c : Ctr) : State := { s with ctrs := tput {} s.ctrs n c }
def ctrDie (n : Nat) : Nat := n / 4096

/-- R443: the value a counter reads as. -/
def Ctr.read (c : Ctr) : W32 := if c.bad then 0 else c.val

/-- R433, R441, R443: the wait is met. Log entry 28, DESIGN CHOICE. -/
def Ctr.met (c : Ctr) (thr : Nat) : Bool :=
  if c.bad then false
  else if c.mode = 3 then decide (tagDiff (c.val.toNat / 65536) thr ≤ 32767)
  else decide (thr ≤ c.val.toNat)

/-- R443: the check of a counter word at an operation; `m` is the endpoint of the operation's requester (R785). -/
def ctrCheck (s : State) (n m : Nat) : State :=
  let r := s.probe 0x1A (ctrDie n) [2] (n % 4096)
  match r.1 with
  | none => s
  | some k =>
    let c := r.2.ctr n
    let s := r.2.setCtr n { c with bad := true }
    s.reportFrom (match c.owner with | none => .notice | some _ => .contained) 0x1A (ctrDie n) k (optParty c.owner) 6
      (n % 4096) m true

/-- A report of the counter-operation detector (R432, R437 to R439, R445). -/
def ctrReport (s : State) (n cause m : Nat) (inj : Bool) : State :=
  let own := (s.ctr n).owner
  let mild := cause == 3 || cause == 5
  s.reportFrom (if mild || own.isNone then .notice else .contained) 0x28 (ctrDie n) cause
    (if cause == 5 then .none else optParty own) 6 (n % 4096) m inj

/-- The causes of the counter-operation detector: 1 below 0 and 2 above 2^32 − 1 (R437), 3 saturation of a counter towards
`a`'s sign (R438), 4 a barrier error (R439, R445), 5 no owner (R432). Each is counted; the operation is not performed. -/
def ctrFail (s : State) (n : Nat) (a : Int) (cause m : Nat) (inj : Bool) : State :=
  let die := ctrDie n
  let s :=
    match cause with
    | 1 => s.bump (R.SNUNDER die)
    | 2 => s.bump (R.SNOVER die)
    | 3 =>
      (s.setCtr n { s.ctr n with val := if a < 0 then 0 else 0xFFFFFFFF#32, satf := true }).bump (R.SNSAT die)
    | 4 => s.bump (R.SNBARERR die)
    | _ => s.bump (R.SNORPH die)
  ctrReport s n cause m inj

/-- The check of an operation at a counter (detector 0x28): `causes` may occur, `real` has. -/
def ctrChecked (s : State) (n : Nat) (a : Int) (causes : List Nat) (real : Option Nat) (m : Nat) (ok : State → State) :
    State :=
  let r := s.check 0x28 (ctrDie n) causes (n % 4096) (fun k => k == 3 || k == 5) real
  match r.1 with
  | some k => ctrFail r.2.2 n a k m r.2.1
  | none => ok r.2.2

/-- R437 to R439: the causes that an add may meet, and the one it meets. -/
def Ctr.addCauses (c : Ctr) : List Nat := match c.mode with | 3 => [4, 5] | 1 => [3, 5] | _ => [1, 2, 5]
def Ctr.addCause (c : Ctr) (a : Int) : Option Nat :=
  let r := (c.val.toNat : Int) + a
  if c.mode = 3 then some 4
  else if r < 0 then some (if c.mode = 1 then 3 else 1)
  else if r > 0xFFFFFFFF then some (if c.mode = 1 then 3 else 2)
  else none

/-- An add of a signed amount that reaches a counter (R432, R437 to R439, R443).
Log entry 28, DESIGN CHOICE; 80, DEDUCED. -/
def ctrAdd (s : State) (n : Nat) (a : Int) (m : Nat) : State :=
  let s := ctrCheck s n m
  let c := s.ctr n
  match c.owner with
  | none => ctrChecked s n a [5] (some 5) m id
  | some _ =>
    if c.bad then s
    else ctrChecked s n a c.addCauses (c.addCause a) m fun s =>
      s.setCtr n { c with val := BitVec.ofInt 32 ((c.val.toNat : Int) + a) }

/-- R440: the value a set leaves. -/
def Ctr.set (c : Ctr) (v : W32) : Ctr :=
  if c.mode = 3 then
    { c with val := v &&& 0xFFFF0000#32, npart := 0, arrived := 0, early := 0, bad := false }
  else { c with val := v, bad := false }

/-- A set that reaches a counter (R432, R440, R443). -/
def ctrSet (s : State) (n : Nat) (v : W32) (m : Nat) : State :=
  ctrChecked s n 0 [5] (if (s.ctr n).owner.isSome then none else some 5) m fun s => s.setCtr n ((s.ctr n).set v)

/-- The value of a barrier counter from GEN and COUNT. -/
def barVal (gen count : Nat) : W32 := BitVec.ofNat 32 (gen % 65536 * 65536 + count % 65536)
def Ctr.gen (c : Ctr) : Nat := c.val.toNat / 65536
def Ctr.count (c : Ctr) : Nat := c.val.toNat % 65536

/-- R445: the completion loop; it ends when no participant is counted. -/
def barComplete : Nat → Ctr → Ctr
  | 0, c => c
  | k + 1, c =>
    if c.npart != 0 && c.count == c.npart then
      let n := popcount 128 c.early
      barComplete k { c with val := barVal (c.gen + 1) n, arrived := c.early, early := 0,
                             npart := if n = 0 then 0 else c.npart }
    else c

/-- R445: an SBAR of core x with NPART p. `none` is a mismatch or a second early arrival. -/
def Ctr.arrive (c : Ctr) (x p : Nat) : Option Ctr :=
  let c := if c.count == 0 && c.early == 0 then { c with npart := p } else c
  if p != c.npart then none
  else if !bitOf c.arrived x then
    some (barComplete 3 { c with arrived := c.arrived ||| 2 ^ x, val := barVal c.gen (c.count + 1) })
  else if !bitOf c.early x then some (barComplete 3 { c with early := c.early ||| 2 ^ x })
  else none

/-- An SBAR of core x that reaches a counter (R432, R439, R443, R445). -/
def ctrBar (s : State) (n x p m : Nat) : State :=
  let s := ctrCheck s n m
  let c := s.ctr n
  match c.owner with
  | none => ctrChecked s n 0 [5] (some 5) m id
  | some _ =>
    if c.bad then s
    else
      let c' := if c.mode = 3 then c.arrive x p else none
      ctrChecked s n 0 [4, 5] (if c'.isSome then none else some 4) m fun s => s.setCtr n (c'.getD c)

/-- R796: removal of a fenced core from a barrier's sets, with completion if the rest covers NPART. -/
def Ctr.dropCore (c : Ctr) (x : Nat) : Ctr :=
  if c.mode != 3 then c
  else
    let a := if bitOf c.arrived x then c.arrived - 2 ^ x else c.arrived
    let e := if bitOf c.early x then c.early - 2 ^ x else c.early
    barComplete 3 { c with arrived := a, early := e, val := barVal c.gen (popcount 128 a) }

/-- R79: the residue of a flow counter. -/
def Ctr.residue (c : Ctr) : W32 := c.read - c.base
/-- R76, R77, R443: re-alignment. -/
def Ctr.realign (c : Ctr) : Ctr := { c with val := c.base, bad := false }

/-- Re-alignment of a list of counters: count of non-zero residues, the lowest such counter and its residue, and the
counters re-aligned (R76 to R80). -/
def realignList (s : State) : List Nat → State × List (Nat × W32)
  | [] => (s, [])
  | n :: r =>
    let c := s.ctr n
    let q := realignList (s.setCtr n c.realign) r
    (q.1, if c.residue = 0 then q.2 else (n % 4096, c.residue) :: q.2)

/-- The flow counters of a context on a die, rising. Unowned counters are in no context's range. -/
def flowCtrs (s : State) (x : Ctx) (die : Nat) : List Nat :=
  (s.ctrs.filter fun e => e.1 / 4096 == die && e.2.mode == 2 && e.2.owner == some x).map (·.1)

/-! ## Message queues (R418 to R429) -/

/-- R419: the context that owns a physical message queue. -/
def mqOwner (s : State) (c q : Nat) : Option Ctx :=
  if q < s.fget (R.MQCFG_NMQD c) then some .d
  else if 16 ≤ q + s.fget (R.MQCFG_NMQT c) && q < 16 then some .t
  else none
/-- R419: the physical queue of a context's index; none past its count. -/
def mqPhys (s : State) (c : Nat) (x : Ctx) (i : Nat) : Option Nat :=
  match x with
  | .d => if i < s.fget (R.MQCFG_NMQD c) then some i else none
  | .t => if i < s.fget (R.MQCFG_NMQT c) then some (16 - s.fget (R.MQCFG_NMQT c) + i) else none

def State.mq (s : State) (c q : Nat) : List W64 := tget [] (s.core c).mqs q
def State.setMq (s : State) (c q : Nat) (l : List W64) : State :=
  let k := s.core c
  s.setCore c { k with mqs := tput [] k.mqs q l }

/-- R421: a queue word. -/
def queueWord (valid poison : Bool) (payload : Nat) : W64 :=
  BitVec.ofNat 64 ((if valid then 2 ^ 63 else 0) + (if poison then 2 ^ 62 else 0) + payload % 2 ^ 62)

/-- R266: a word has arrived for a hart that waits in WFI. -/
def wakeWfi (s : State) (c : Nat) (x : Ctx) : State :=
  let h := s.cc c x
  match h.stall with
  | .wfi t _ => s.setCc c x { h with stall := .wfi t true }
  | _ => s

/-- R420, R422: delivery of a message, its words with their poison, to a physical queue, from the endpoint `m`. -/
def deliver (s : State) (c q : Nat) (words : List (Nat × Bool)) (m : Nat) : State :=
  let own := mqOwner s c q
  let l := s.mq c q
  let real := if own.isNone then some 1 else if l.length + words.length > 64 then some 2 else none
  let r := s.check 0x2A c (if own.isNone then [1] else [1, 2]) 0 (· == 1) real
  match r.1, own with
  | none, some x => wakeWfi (r.2.2.setMq c q (l ++ words.map fun w => queueWord true w.2 w.1)) c x
  | some 2, some x =>
    (r.2.2.bump (match x with | .d => R.MQDROPD c | .t => R.MQDROPT c)).reportFrom .contained 0x2A c 2 (ctxParty x) 7 0 m r.2.1
  | _, _ => (r.2.2.bump (R.MQDROPN c)).reportFrom .notice 0x2A c 1 .none 7 0 m r.2.1

/-- R425, R426, R786: the check of a queue word as it is read from index i of the core's queue storage: the word delivered and
the state. -/
def queueCheck (s : State) (c : Nat) (x : Ctx) (i : Nat) (w : W64) : W64 × State :=
  let ecc := s.fbit (R.MQCFG_ECC c)
  let pr := s.probe 0x16 c (if ecc then [1, 2] else [2]) i
  match pr.1 with
  | none => (w, s)
  | some k =>
    if k = 1 then
      (w, (pr.2.bump (R.MQCORR c)).correctedWord 0x16 c c (ctxParty x) 1 i)
    else
      (w ||| 0x4000000000000000#64,
       (pr.2.bump (R.MQPOIS c)).reportFrom .notice 0x16 c 2 (ctxParty x) 1 i (s.endpoint (0x80 + c)) true)

/-- R423: the oldest word leaves a message queue; all zeros from an empty one. It stands in the first of the queue's 64 entries;
the message queues come first in the storage, then D's and T's completion queue. Log entry 18, DEDUCED. -/
def mqTake (s : State) (c : Nat) (x : Ctx) (q : Nat) : W64 × State :=
  match s.mq c q with
  | [] => (0, s)
  | w :: r => queueCheck (s.setMq c q r) c x (64 * q) w

/-- R281, R283: a completion word joins the context's completion queue, or is lost when the queue is full. -/
def cqPost (s : State) (c : Nat) (x : Ctx) (w : W64) : State :=
  let h := s.cc c x
  let pr := s.probe 0x0C c [ctxNum x] 0
  if h.cq.length ≥ 64 || pr.1.isSome then
    (pr.2.bump (match x with | .d => R.CQOVFD c | .t => R.CQOVFT c)).reportFrom .contained 0x0C c (ctxNum x)
      (ctxParty x) 7 0 (s.endpoint (0x80 + c)) pr.1.isSome
  else wakeWfi (s.setCc c x { h with cq := h.cq ++ [w] }) c x

/-- R423, R429: the oldest completion word. Log entry 18, DEDUCED. -/
def cqTake (s : State) (c : Nat) (x : Ctx) : W64 × State :=
  let h := s.cc c x
  match h.cq with
  | [] => (0, s)
  | w :: r => queueCheck (s.setCc c x { h with cq := r }) c x (1024 + 64 * ctxNum x) w

/-- R282: a completion word. -/
def completionWord (q rtag tag : Nat) : W64 :=
  BitVec.ofNat 64 (2 ^ 63 + q * 2 ^ 59 + rtag % 65536 * 2 ^ 32 + tag % 65536)

end Sys2Proof.Machine
end

