-- ==== Sys2Proof/Machine/Harts.lean ====
section
/-! DEFINITION. Sys2Proof/Machine/Harts.lean: waiters, halts, instruction queues and the Xweave operations of the scalar
control processor (R253 to R301), and the cluster's fast barriers. -/

namespace Sys2Proof.Machine

/-! ## Waiters -/

/-- R451: the limit of a wait that begins now, in tenths of ns. -/
def waitLimit (s : State) (c : Nat) (x : Ctx) : Nat :=
  s.fget R.RNDPER_PERIOD *
    (match x with | .d => s.fget (R.SNTOCFG_WTOD (dieOf c)) | .t => s.fget (R.SNTOCFG_WTOT (dieOf c))) * 100
/-- R450: a new wait begins; its timer starts from 0. -/
def startWait (s : State) (c : Nat) (x : Ctx) (w : Nat) : State :=
  let h := s.cc c x
  s.setCc c x { h with waits := tput ⟨0, 0⟩ h.waits w ⟨0, waitLimit s c x⟩ }
def endWait (s : State) (c : Nat) (x : Ctx) (w : Nat) : State :=
  let h := s.cc c x
  s.setCc c x { h with waits := tdel h.waits w }

/-! ## Instruction queues -/

def State.queue (s : State) (c : Nat) (x : Ctx) (q : Nat) : List QEntry := tget [] (s.cc c x).queues q
def State.setQueue (s : State) (c : Nat) (x : Ctx) (q : Nat) (l : List QEntry) : State :=
  let h := s.cc c x
  s.setCc c x { h with queues := tput [] h.queues q l }
/-- R298: the context's credits on a queue. -/
def creditsOf (s : State) (c : Nat) (x : Ctx) (q : Nat) : Nat :=
  match x with
  | .d => s.fget (R.QCFG_CREDD c q)
  | .t => s.fget (R.QCFG_CREDT c q)
/-- R275, R276: credits not taken by queued entries. -/
def freeCredits (s : State) (c : Nat) (x : Ctx) (q : Nat) : Nat := creditsOf s c x q - (s.queue c x q).length

/-- An entry enters a queue (R276); at the head it begins a wait (R449). -/
def enqueue (s : State) (c : Nat) (x : Ctx) (q : Nat) (w : W128) : State :=
  let h := s.cc c x
  let l := s.queue c x q
  let s := (s.setCc c x { h with nextSeq := h.nextSeq + 1 }).setQueue c x q (l ++ [⟨w, h.nextSeq, false⟩])
  if l.isEmpty then startWait s c x q else s

/-- The head of a queue leaves it, by issue or discard; the next entry begins a wait. -/
def dropHead (s : State) (c : Nat) (x : Ctx) (q : Nat) : State :=
  let l := (s.queue c x q).tail
  let s := s.setQueue c x q l
  if l.isEmpty then endWait s c x q else startWait s c x q

/-- R203, R252, R290: discarded entries are counted by the unit's discard counter where the unit has one. -/
def discCount (s : State) (c q n : Nat) : State :=
  if q = 0 then s.bumpBy (R.WVDISC c 0) n
  else if q = 1 then s.bumpBy (R.WVDISC c 1) n
  else if q = 2 then s.bumpBy (R.VUDISC c) n
  else s
/-- R797: the context's work in flight on a unit has been told to abort. -/
def tellFlight (s : State) (c : Nat) (x : Ctx) (q : Nat) : State :=
  let k := s.core c
  s.setCore c { k with infl := k.infl.map fun e =>
    if e.1 == q && e.2.ctx == x then (e.1, { e.2 with told := true }) else e }
/-- Every queued entry of a context on a queue is discarded, without signal or completion; what is in flight goes on
(R290, R720). -/
def discardQueue (s : State) (c : Nat) (x : Ctx) (q : Nat) : State :=
  endWait ((discCount (tellFlight s c x q) c q (s.queue c x q).length).setQueue c x q []) c x q
def discardAll (s : State) (c : Nat) (x : Ctx) : State :=
  [0, 1, 2, 3, 4, 5].foldl (fun s q => discardQueue s c x q) s

/-- R303: the class of a command word. -/
def classOf (w : W128) : Nat := bitsOf w.toNat 125 3
/-- R274: the queue accepts the class. -/
def classFits (w : W128) (q : Nat) : Bool :=
  match q with
  | 0 | 1 => classOf w ≤ 1
  | 2 => classOf w == 2
  | 3 => classOf w == 3
  | 4 => classOf w == 4
  | 5 => classOf w == 5 || classOf w == 6
  | _ => false
def tagOf (w : W128) : Nat := bitsOf w.toNat 52 16

/-! ## Halts (R284, R285, R297) -/

/-- The class of report a halt raises: ECALL a Notice, EBREAK in debug mode and the debug halts none (R285).
Log entry 31, DEDUCED. -/
def haltClass (s : State) (c code : Nat) : Option Cls :=
  match code with
  | 0x0A => some .notice
  | 0x0B => if s.fbit (R.CPCTL_DBGEN c) then none else some .contained
  | 0x0C | 0x0D => none
  | _ => some .contained

/-- Completion of a generation: its harts are to be released (R448). -/
def FbSlot.complete (b : FbSlot) : FbSlot :=
  if b.mask != 0 && b.arrived == b.mask then
    { b with gen := b.gen + 1, release := b.mask, arrived := 0 }
  else b

/-- An XBAR of the cluster's core b with mask m; `none` is a mismatch (R294). An arrival before the release of the
completed generation belongs to the next one, whose mask its first arrival gives (R294, R448). -/
def FbSlot.arrive (f : FbSlot) (b m : Nat) : Option FbSlot :=
  if f.release = 0 then
    let f := if f.arrived = 0 then { f with mask := m } else f
    if !bitOf m b || m != f.mask || bitOf f.arrived b then none
    else some ({ f with arrived := f.arrived ||| 2 ^ b } : FbSlot).complete
  else
    let f := if f.early = 0 then { f with next := m } else f
    if !bitOf m b || m != f.next || bitOf f.release b || bitOf f.early b then none
    else some { f with early := f.early ||| 2 ^ b }
/-- R448: once the last release has happened, the arrivals held early join the next generation. -/
def FbSlot.settle (f : FbSlot) : FbSlot :=
  if f.release != 0 then f
  else if f.early != 0 then ({ f with arrived := f.early, mask := f.next, early := 0, next := 0 } : FbSlot).complete
  else { f with next := 0, mask := if f.arrived = 0 then 0 else f.mask }
/-- R280, R448: a hart of the cluster's core b that waited at the slot waits there no more. -/
def FbSlot.dropCore (f : FbSlot) (b : Nat) : FbSlot :=
  let off (m : Nat) : Nat := if bitOf m b then m - 2 ^ b else m
  ({ f with arrived := off f.arrived, early := off f.early, release := off f.release } : FbSlot).settle

/-- R448: a hart that leaves an XBAR before its completion withdraws its arrival. Log entry 77, DEDUCED. -/
def fbWithdraw (s : State) (c : Nat) (st : Stall) : State :=
  match st with
  | .xbar slot _ =>
    let k := clusterOf c * 16 + slot
    { s with fb := tput {} s.fb k ((tget {} s.fb k : FbSlot).dropCore (c % 4)) }
  | _ => s

/-- R284: what a halt stops and records. `src` is the SRC code of R297. -/
def haltState (s : State) (c : Nat) (x : Ctx) (code src addr : Nat) (word : W128) : State :=
  let h := s.cc c x
  let s := fbWithdraw s c h.stall
  let s := s.setCc c x { h with
    hst := if h.hst == .notLoaded then .notLoaded else .halted
    stall := .none, resv := none, issueHalt := true, stepping := false
    haltPc := h.pc, haltAddr := BitVec.ofNat 64 addr, haltCmd := word
    waits := tdel h.waits 6 }
  let tag := if 1 ≤ src && src ≤ 6 then tagOf word else 0
  s.wr (match x with | .d => R.CPHALTD c | .t => R.CPHALTT c) (BitVec.ofNat 32 (code * 2 ^ 24 + src * 2 ^ 21 + tag))

/-- R284, R285: a halt of a context on a core, with its report; `at_` is the address reported, where it is not the one
recorded (R786). -/
def halt (s : State) (c : Nat) (x : Ctx) (code src addr acc : Nat) (word : W128) (inj : Bool := false)
    (at_ : Nat := addr) : State :=
  let s' := haltState s c x code src addr word
  match haltClass s c code with
  | none => s'
  | some k =>
    let det := if code = 0x41 || code = 0x07 || code = 0x08 then 0x29 else 0x08
    s'.reportFrom k det c code (ctxParty x) acc at_ (s'.endpoint (masterOf det c)) inj

/-- A halt whose source is the hart. -/
def haltHart (s : State) (c : Nat) (x : Ctx) (code addr acc : Nat) (inj : Bool := false) : State :=
  halt s c x code 0 addr acc 0 inj
/-- R285, R806: a check of the hart that can halt it with one of `codes`; `real` is what it finds. -/
def hartCheck (s : State) (c : Nat) (x : Ctx) (codes : List Nat) (addr acc : Nat) (real : Option Nat) (go : State → State) :
    State :=
  let r := s.check 0x08 c codes addr (fun _ => false) real
  match r.1 with
  | some code => haltHart r.2.2 c x code addr acc r.2.1
  | none => go r.2.2
/-- The code of a check, where it has failed. -/
def codeIf (bad : Bool) (code : Nat) : Option Nat := if bad then some code else none

/-! ## Harts -/

/-- The module's Device stop is in force (R788). -/
def State.stopped (s : State) : Bool := s.fget R.FHSTAT_STATE != 0
/-- R794: the module is in GRAVE. -/
def State.grave (s : State) : Bool := s.fget R.FHSTAT_STATE == 2
/-- R794: after a Grave fault only the Base functions go on: an event of any other leaves the state as it is.
Log entry 78, DEDUCED. -/
def ifAlive (s t : State) : Host.Outcome State Fault Refusal := .next (if s.grave then s else t)
/-- R757, R758: the core was fenced by a self-test. -/
def State.fencedTest (s : State) (c : Nat) : Bool := bitOf (s.rd (R.FENCE (c / 32))).toNat (c % 32)
/-- R798: the core is fenced in service. -/
def State.fencedSv (s : State) (c : Nat) : Bool := bitOf s.fenceCores c

/-- The hart can take an instruction: enabled, running, not stalled, no Device stop. -/
def hartGo (s : State) (c : Nat) (x : Ctx) : Bool :=
  let h := s.cc c x
  s.fbit (R.CPCTL_ENABLE c) && h.hst == .running && h.stall == .none && !s.stopped && !s.fencedSv c

def CoreCtx.x (h : CoreCtx) (n : Nat) : W64 := if n = 0 then 0 else tget 0 h.xs n
def CoreCtx.setX (h : CoreCtx) (n : Nat) (v : W64) : CoreCtx :=
  if n = 0 then h else { h with xs := tput 0 h.xs n v }
def State.xreg (s : State) (c : Nat) (x : Ctx) (n : Nat) : W64 := (s.cc c x).x n
def State.setXreg (s : State) (c : Nat) (x : Ctx) (n : Nat) (v : W64) : State :=
  s.setCc c x ((s.cc c x).setX n v)

/-- R287: the end of a single step. -/
def stepEnd (s : State) (c : Nat) (x : Ctx) : State :=
  if (s.cc c x).stepping then haltHart s c x 0x0C 0 0 else s

/-- An instruction of the hart retires and the pc takes `pc'` (R264). -/
def hartRetire (s : State) (c : Nat) (x : Ctx) (pc' : W64) : State :=
  let h := s.cc c x
  stepEnd (s.setCc c x { h with pc := pc', stall := .none, instret := h.instret + 1, waits := tdel h.waits 6 }) c x
/-- A 4-byte instruction retires in sequence. -/
def hartNext (s : State) (c : Nat) (x : Ctx) : State := hartRetire s c x ((s.cc c x).pc + 4)
/-- A 4-byte instruction retires with a result. -/
def hartResult (s : State) (c : Nat) (x : Ctx) (rd : Nat) (v : W64) : State := hartNext (s.setXreg c x rd v) c x
/-- The hart stalls in a blocking instruction and begins a wait (R259, R449). -/
def hartStall (s : State) (c : Nat) (x : Ctx) (st : Stall) : State :=
  startWait (s.setCc c x { s.cc c x with stall := st }) c x 6

def low14 (v : W64) : Nat := v.toNat % 16384
/-- R269, R285: a counter named by a hart must lie in its context's partition. -/
def ownsCtr (s : State) (x : Ctx) (n : Nat) : Bool := (s.ctr n).owner == some x

/-! ## Xweave (R267 to R273, R278, R279) -/

def wordOf (lo hi : W64) : W128 := hi ++ lo

/-- R268, R274: the checks of a push; a queue number of 6 or 7 is illegal. -/
def pushCheck (s : State) (c : Nat) (x : Ctx) (q : Nat) (w : W128) (go : State → State) : State :=
  hartCheck s c x [0x01] 0 3 (codeIf (decide (6 ≤ q)) 0x01) fun s =>
    let r := s.check 0x08 c [0x05] q (fun _ => false) (codeIf (!classFits w q) 0x05)
    if r.1.isSome then halt r.2.2 c x 0x05 0 q 4 w r.2.1 else go r.2.2
/-- R278, R279: QPUSH. -/
def doQpush (s : State) (c : Nat) (x : Ctx) (q : Nat) (w : W128) : State :=
  pushCheck s c x q w fun s =>
    if freeCredits s c x q = 0 then hartStall s c x (.qpush q w)
    else hartNext (enqueue s c x q w) c x

def doQpushnb (s : State) (c : Nat) (x : Ctx) (rd q : Nat) (w : W128) : State :=
  pushCheck s c x q w fun s =>
    if freeCredits s c x q = 0 then hartResult s c x rd 0
    else hartResult (enqueue s c x q w) c x rd 1

def doQcred (s : State) (c : Nat) (x : Ctx) (rd q : Nat) : State :=
  hartCheck s c x [0x01] 0 3 (codeIf (decide (6 ≤ q)) 0x01) fun s =>
    hartResult s c x rd (BitVec.ofNat 64 (freeCredits s c x q))

def doCpop (s : State) (c : Nat) (x : Ctx) (rd : Nat) : State :=
  let r := cqTake s c x
  hartResult r.2 c x rd r.1

/-- R271, R419: MPOP by the context's queue index. -/
def doMpop (s : State) (c : Nat) (x : Ctx) (rd : Nat) (v : W64) : State :=
  hartCheck s c x [0x04] (v.toNat % 16) 1 (codeIf (mqPhys s c x (v.toNat % 16)).isNone 0x04) fun s =>
    match mqPhys s c x (v.toNat % 16) with
    | none => s
    | some q =>
      let r := mqTake s c x q
      hartResult r.2 c x rd r.1

def flagReg (c : Nat) : Ctx → Nat
  | .d => R.FMTFLGD c
  | .t => R.FMTFLGT c
/-- R136: events set a context's sticky flags. -/
def setFlags (s : State) (c : Nat) (x : Ctx) (f : Fl) : State :=
  s.wr (flagReg c x) (s.rd (flagReg c x) ||| f.setWidth 32)

def doXflag (s : State) (c : Nat) (x : Ctx) (rd : Nat) (clear : Option W64) : State :=
  let f := s.rd (flagReg c x)
  let s' := match clear with
    | none => s
    | some m => s.wr (flagReg c x) (f &&& ~~~((m.setWidth 8).setWidth 32))
  hartResult s' c x rd (f.setWidth 64)

/-- R273: every instruction pushed before, to a masked queue, has retired. -/
def fenceDone (s : State) (c : Nat) (x : Ctx) (mask upTo : Nat) : Bool :=
  [0, 1, 2, 3, 4, 5].all fun q =>
    !bitOf mask q ||
    ((s.queue c x q).all (fun e => upTo ≤ e.seq) &&
     (match (s.core c).infl.find? (·.1 == q) with
      | none => true
      | some e => e.2.ctx != x || upTo ≤ e.2.seq))

def doXfence (s : State) (c : Nat) (x : Ctx) (mask : Nat) : State :=
  let n := (s.cc c x).nextSeq
  if fenceDone s c x mask n then hartNext s c x else hartStall s c x (.xfence mask n)

/-- R269, R285: the check of the counter that an instruction names. -/
def scCheck (s : State) (c : Nat) (x : Ctx) (v : W64) (go : State → State) : State :=
  hartCheck s c x [0x04] (low14 v) 6 (codeIf (!ownsCtr s x (low14 v)) 0x04) go

def doScrd (s : State) (c : Nat) (x : Ctx) (rd : Nat) (v : W64) : State :=
  scCheck s c x v fun s =>
    let s := ctrCheck s (low14 v) (s.endpoint (0x80 + c))
    hartResult s c x rd ((s.ctr (low14 v)).read.setWidth 64)

def doScadd (s : State) (c : Nat) (x : Ctx) (v a : W64) : State :=
  scCheck s c x v fun s => hartNext (ctrAdd s (low14 v) (a.setWidth 32).toInt (s.endpoint (0x80 + c))) c x

def doScset (s : State) (c : Nat) (x : Ctx) (v a : W64) : State :=
  scCheck s c x v fun s => hartNext (ctrSet s (low14 v) (a.setWidth 32) (s.endpoint (0x80 + c))) c x

def doScwait (s : State) (c : Nat) (x : Ctx) (rd : Nat) (v a : W64) : State :=
  scCheck s c x v fun s =>
    let s := ctrCheck s (low14 v) (s.endpoint (0x80 + c))
    let k := s.ctr (low14 v)
    if k.met (a.setWidth 32).toNat then hartResult s c x rd (k.read.setWidth 64)
    else hartStall s c x (.scwait rd (low14 v) (a.setWidth 32))

/-! ## Fast barriers (R293, R294, R448) -/

/-- The slot lies in the context's range (R293). -/
def fbOwns (s : State) (c : Nat) (x : Ctx) (slot : Nat) : Bool :=
  let n := s.fget (R.FBCFG_DCNT (clusterOf c))
  match x with
  | .d => slot < n
  | .t => n ≤ slot

/-- R294: every hart that waits at the slot halts and the slot returns to its initial state. The harts of a generation
that is complete wait for nothing but their release, which they keep. -/
def fbMismatch (s : State) (c : Nat) (x : Ctx) (slot : Nat) (inj : Bool := false) : State :=
  let cl := clusterOf c
  let rel := (tget {} s.fb (cl * 16 + slot) : FbSlot).release
  let s := { s with fb := tput {} s.fb (cl * 16 + slot) { release := rel } }
  let s := [0, 1, 2, 3].foldl (fun s b =>
    match (s.cc (cl * 4 + b) x).stall with
    | .xbar k _ => if k = slot && !bitOf rel b then haltHart s (cl * 4 + b) x 0x09 slot 4 inj else s
    | _ => s) s
  (haltHart s c x 0x09 slot 4 inj).bump (R.FBERR cl)

def doXbar (s : State) (c : Nat) (x : Ctx) (v m : W64) : State :=
  let slot := v.toNat % 16
  let mask := m.toNat % 16
  hartCheck s c x [0x04] slot 4 (codeIf (!fbOwns s c x slot) 0x04) fun s =>
    let k := clusterOf c * 16 + slot
    let a := (tget {} s.fb k : FbSlot).arrive (c % 4) mask
    let r := s.check 0x08 c [0x09] slot (fun _ => false) (codeIf a.isNone 0x09)
    match r.1, a with
    | none, some f => hartStall { r.2.2 with fb := tput {} s.fb k f } c x (.xbar slot mask)
    | _, _ => fbMismatch r.2.2 c x slot r.2.1

/-- R448: the harts of a completed generation are released; held arrivals join the next generation. -/
def fbRelease (s : State) (cl slot : Nat) : State :=
  let k := cl * 16 + slot
  let f := tget {} s.fb k
  if f.release = 0 then s
  else
    let s := { s with fb := tput {} s.fb k ({ f with release := 0 } : FbSlot).settle }
    [0, 1, 2, 3].foldl (fun s b =>
      if bitOf f.release b && !s.fencedSv (cl * 4 + b) then
        let c := cl * 4 + b
        [Ctx.d, Ctx.t].foldl (fun s x =>
          match (s.cc c x).stall with
          | .xbar j _ => if j = slot then hartNext s c x else s
          | _ => s) s
      else s) s

/-! ## Meanings of the Xweave rows -/

/-- A meaning of a hart's instruction: it runs when the hart can take one. Log entry 2, DESIGN CHOICE. -/
def ifGo (s : State) (c : Nat) (x : Ctx) (f : State → State) : Host.Outcome State Fault Refusal :=
  .next (if hartGo s c x then f s else s)

def execQpush (core : CoreId) (ctx : Ctx) (q : Fin 8) (rs1 rs2 : XReg) (s : State) : Host.Outcome State Fault Refusal :=
  ifGo s core ctx fun s => doQpush s core ctx q (wordOf (s.xreg core ctx rs1) (s.xreg core ctx rs2))
/-- R279: a credit has returned and the stalled QPUSH completes. -/
def execQpushResume (core : CoreId) (ctx : Ctx) (s : State) : Host.Outcome State Fault Refusal :=
  .next (match (s.cc core ctx).stall with
    | .qpush q w => if freeCredits s core ctx q = 0 || s.stopped || s.fencedSv core then s else hartNext (enqueue s core ctx q w) core ctx
    | _ => s)
def execQpushnb (core : CoreId) (ctx : Ctx) (rd : XReg) (q : Fin 8) (rs1 rs2 : XReg) (s : State) :
    Host.Outcome State Fault Refusal :=
  ifGo s core ctx fun s => doQpushnb s core ctx rd q (wordOf (s.xreg core ctx rs1) (s.xreg core ctx rs2))
def execQcred (core : CoreId) (ctx : Ctx) (rd : XReg) (q : Fin 8) (s : State) : Host.Outcome State Fault Refusal :=
  ifGo s core ctx fun s => doQcred s core ctx rd q
def execCpop (core : CoreId) (ctx : Ctx) (rd : XReg) (s : State) : Host.Outcome State Fault Refusal :=
  ifGo s core ctx fun s => doCpop s core ctx rd
def execMpop (core : CoreId) (ctx : Ctx) (rd rs1 : XReg) (s : State) : Host.Outcome State Fault Refusal :=
  ifGo s core ctx fun s => doMpop s core ctx rd (s.xreg core ctx rs1)
def execXflagRead (core : CoreId) (ctx : Ctx) (rd : XReg) (s : State) : Host.Outcome State Fault Refusal :=
  ifGo s core ctx fun s => doXflag s core ctx rd none
def execXflagClear (core : CoreId) (ctx : Ctx) (rd rs1 : XReg) (s : State) : Host.Outcome State Fault Refusal :=
  ifGo s core ctx fun s => doXflag s core ctx rd (some (s.xreg core ctx rs1))
def execXfence (core : CoreId) (ctx : Ctx) (mask : Fin 64) (s : State) : Host.Outcome State Fault Refusal :=
  ifGo s core ctx fun s => doXfence s core ctx mask
/-- R273: the fenced instructions have retired. -/
def execXfenceRelease (core : CoreId) (ctx : Ctx) (s : State) : Host.Outcome State Fault Refusal :=
  .next (match (s.cc core ctx).stall with
    | .xfence m n => if fenceDone s core ctx m n && !s.stopped && !s.fencedSv core then hartNext s core ctx else s
    | _ => s)
def execScrd (core : CoreId) (ctx : Ctx) (rd rs1 : XReg) (s : State) : Host.Outcome State Fault Refusal :=
  ifGo s core ctx fun s => doScrd s core ctx rd (s.xreg core ctx rs1)
def execScadd (core : CoreId) (ctx : Ctx) (rs1 rs2 : XReg) (s : State) : Host.Outcome State Fault Refusal :=
  ifGo s core ctx fun s => doScadd s core ctx (s.xreg core ctx rs1) (s.xreg core ctx rs2)
def execScset (core : CoreId) (ctx : Ctx) (rs1 rs2 : XReg) (s : State) : Host.Outcome State Fault Refusal :=
  ifGo s core ctx fun s => doScset s core ctx (s.xreg core ctx rs1) (s.xreg core ctx rs2)
def execScwait (core : CoreId) (ctx : Ctx) (rd rs1 rs2 : XReg) (s : State) : Host.Outcome State Fault Refusal :=
  ifGo s core ctx fun s => doScwait s core ctx rd (s.xreg core ctx rs1) (s.xreg core ctx rs2)
/-- R442, R455: the waited counter meets the threshold. -/
def execScwaitRelease (core : CoreId) (ctx : Ctx) (s : State) : Host.Outcome State Fault Refusal :=
  .next (match (s.cc core ctx).stall with
    | .scwait rd n thr =>
      if (s.ctr n).met thr.toNat && !s.stopped && !s.fencedSv core then hartResult s core ctx rd ((s.ctr n).read.setWidth 64) else s
    | _ => s)
def execXbar (core : CoreId) (ctx : Ctx) (rs1 rs2 : XReg) (s : State) : Host.Outcome State Fault Refusal :=
  ifGo s core ctx fun s => doXbar s core ctx (s.xreg core ctx rs1) (s.xreg core ctx rs2)
def execFastBarrierRelease (cluster : ClusterId) (slot : SlotId) (s : State) : Host.Outcome State Fault Refusal :=
  .next (if s.stopped then s else fbRelease s cluster slot)

/-- R285: ECALL ends the program. -/
def doEcall (s : State) (c : Nat) (x : Ctx) : State := hartCheck s c x [0x0A] 0 0 (some 0x0A) id
def doEbreak (s : State) (c : Nat) (x : Ctx) : State := hartCheck s c x [0x0B] 0 0 (some 0x0B) id
/-- R266: the hart stops issuing. -/
def doWfi (s : State) (c : Nat) (x : Ctx) : State := hartStall s c x (.wfi s.clk.tenths false)
def execEcall (core : CoreId) (ctx : Ctx) (s : State) : Host.Outcome State Fault Refusal :=
  ifGo s core ctx fun s => doEcall s core ctx
def execEbreak (core : CoreId) (ctx : Ctx) (s : State) : Host.Outcome State Fault Refusal :=
  ifGo s core ctx fun s => doEbreak s core ctx
def execWfi (core : CoreId) (ctx : Ctx) (s : State) : Host.Outcome State Fault Refusal :=
  ifGo s core ctx fun s => doWfi s core ctx

end Sys2Proof.Machine
end

