-- ==== Sys2Proof/Machine/Rv.lean ====
section
/-! DEFINITION. Sys2Proof/Machine/Rv.lean: the RV64IMAC, Zicsr and Zifencei instructions of a hart in machine mode, the
decoding of Xweave, and the step of one hart instruction (R256 to R268). A compressed instruction is expanded to the
32-bit instruction it stands for. -/

namespace Sys2Proof.Machine

/-! ## Scalar memories (R260 to R263) -/

/-- R260, R404 type 0x18: granules of the instruction partition, V0 [15:0], and of the data partition, V0 [31:16]. -/
def imBytes (s : State) (c : Nat) (x : Ctx) : Nat := (s.jrange x 0x18 c).1 % 65536 * 4096
def dmBytes (s : State) (c : Nat) (x : Ctx) : Nat := (s.jrange x 0x18 c).1 / 65536 % 65536 * 4096
def dmBase : Nat := 0x10000000

/-- The address lies wholly in the instruction partition, or in the data partition. -/
def inIm (s : State) (c : Nat) (x : Ctx) (a n : Nat) : Bool := a + n ≤ imBytes s c x
def inDm (s : State) (c : Nat) (x : Ctx) (a n : Nat) : Bool := dmBase ≤ a && a + n ≤ dmBase + dmBytes s c x

/-- R260, R786: the word index, in the core's scalar memories, of word w of a hart's address space: the 32,768 words of
instruction memory come first. Context D's granules are the first of each memory, context T's the last.
Log entry 18, DEDUCED. -/
def scalarIndex (s : State) (c : Nat) (x : Ctx) (w : Nat) : Nat :=
  let off (total own : Nat) : Nat := match x with | .d => 0 | .t => (total - own) / 4
  if w < dmBase / 4 then off 0x20000 (imBytes s c x) + w
  else 0x8000 + off 0x40000 (dmBytes s c x) + (w - dmBase / 4)
/-- R263: the check of one scalar-memory word: an uncorrectable one. -/
def scalarWord (c : Nat) (x : Ctx) (r : Option Nat × State) (w : Nat) : Option Nat × State :=
  match r.1 with
  | some _ => r
  | none =>
    let i := scalarIndex r.2 c x w
    let pr := r.2.probe 0x14 c [1, 2] i
    match pr.1 with
    | none => r
    | some 1 => (none, pr.2.correctedWord 0x14 c c (ctxParty x) 1 i)
    | some _ => (some w, pr.2)
/-- R263: the check of the scalar-memory words that n bytes at a touch: an uncorrectable one, if any, and the state.
Log entry 18, DEDUCED. -/
def scalarCheck (s : State) (c : Nat) (x : Ctx) (a n : Nat) : Option Nat × State :=
  (wordsOf a n).foldl (scalarWord c x) (none, s)
/-- R263, R285, R806: the read of n bytes at a by a hart, which an uncorrectable word halts: the word's address is recorded
and its index reported. -/
def scalarRead (s : State) (c : Nat) (x : Ctx) (a n acc : Nat) (go : State → State) : State :=
  let r := scalarCheck s c x a n
  let w := r.1.getD (a / 4)
  let f := r.2.check 0x08 c [0x06] (scalarIndex s c x w) (fun _ => false) (codeIf r.1.isSome 0x06)
  match f.1 with
  | some code => halt f.2.2 c x code 0 (4 * w) acc 0 true (scalarIndex s c x w)
  | none => go f.2.2

def scalarBytes (s : State) (c : Nat) (x : Ctx) (a n : Nat) : List Byte :=
  let h := s.cc c x
  if a < dmBase then cellsGet h.imem a n else cellsGet h.dmem (a - dmBase) n

/-- R316: a store to a descriptor latched by an instruction in flight is counted. -/
def descCount (s : State) (c : Nat) (x : Ctx) (off n : Nat) : State :=
  let hit := (s.core c).infl.any fun e => e.2.ctx == x &&
    e.2.latched.any fun r => decide (off < r.1 + r.2) && decide (r.1 < off + n)
  if hit then s.bump (match x with | .d => R.DESCWRD c | .t => R.DESCWRT c) else s

/-- A store of n bytes to the data partition, already checked. -/
def scalarStore (s : State) (c : Nat) (x : Ctx) (a n v : Nat) : State :=
  let h := s.cc c x
  let s := descCount s c x (a - dmBase) n
  s.setCc c x { h with dmem := cellsPut h.dmem (a - dmBase) (leBytes n v) }

/-- R261, R262: why a load of n bytes at a halts the hart, if it does. Log entry 30, DEDUCED. -/
def loadFault (s : State) (c : Nat) (x : Ctx) (a n : Nat) : Option Nat :=
  if a % n != 0 then some 0x02
  else if inIm s c x a n || inDm s c x a n then none
  else some 0x03
/-- Log entry 30, DEDUCED. -/
def storeFault (s : State) (c : Nat) (x : Ctx) (a n : Nat) : Option Nat :=
  if a % n != 0 then some 0x02
  else if inDm s c x a n then none
  else some 0x03

/-! ## Integer arithmetic -/

/-- Sign extension of a 32-bit result. -/
def sext32 (v : W64) : W64 := (v.setWidth 32).signExtend 64

/-- RV64I and RV64M operations on 64-bit operands by funct3 and group: 0 base, 1 alternate, 2 multiply. -/
def aluOp (grp f3 : Nat) (a b : W64) : W64 :=
  match grp, f3 with
  | 0, 0 => a + b
  | 1, 0 => a - b
  | 0, 1 => a <<< (b.toNat % 64)
  | 0, 2 => if a.slt b then 1 else 0
  | 0, 3 => if a.ult b then 1 else 0
  | 0, 4 => a ^^^ b
  | 0, 5 => a >>> (b.toNat % 64)
  | 1, 5 => a.sshiftRight (b.toNat % 64)
  | 0, 6 => a ||| b
  | 0, 7 => a &&& b
  | 2, 0 => a * b
  | 2, 1 => BitVec.ofInt 64 (a.toInt * b.toInt / 2 ^ 64)
  | 2, 2 => BitVec.ofInt 64 (a.toInt * (b.toNat : Int) / 2 ^ 64)
  | 2, 3 => BitVec.ofNat 64 (a.toNat * b.toNat / 2 ^ 64)
  | 2, 4 => if b = 0 then -1 else BitVec.ofInt 64 (a.toInt.tdiv b.toInt)
  | 2, 5 => if b = 0 then -1 else a / b
  | 2, 6 => if b = 0 then a else BitVec.ofInt 64 (a.toInt.tmod b.toInt)
  | 2, 7 => if b = 0 then a else a % b
  | _, _ => 0

/-- The W forms, on the low 32 bits with a sign-extended result; none where the group has no such form. -/
def aluOpW (grp f3 : Nat) (a b : W64) : Option W64 :=
  let a' := a.setWidth 32
  let b' := b.setWidth 32
  let sg (v : W32) : Option W64 := some (v.signExtend 64)
  match grp, f3 with
  | 0, 0 => sg (a' + b')
  | 1, 0 => sg (a' - b')
  | 0, 1 => sg (a' <<< (b'.toNat % 32))
  | 0, 5 => sg (a' >>> (b'.toNat % 32))
  | 1, 5 => sg (a'.sshiftRight (b'.toNat % 32))
  | 2, 0 => sg (a' * b')
  | 2, 4 => sg (if b' = 0 then -1 else BitVec.ofInt 32 (a'.toInt.tdiv b'.toInt))
  | 2, 5 => sg (if b' = 0 then -1 else a' / b')
  | 2, 6 => sg (if b' = 0 then a' else BitVec.ofInt 32 (a'.toInt.tmod b'.toInt))
  | 2, 7 => sg (if b' = 0 then a' else a' % b')
  | _, _ => none

/-- AMO operations by funct5, on operands of the access width. -/
def amoOp (f5 : Nat) (w : Nat) (old v : Nat) : Option Nat :=
  let so := signedOf old w
  let sv := signedOf v w
  match f5 with
  | 0x01 => some v
  | 0x00 => some ((old + v) % 2 ^ w)
  | 0x04 => some (old ^^^ v)
  | 0x0C => some (old &&& v)
  | 0x08 => some (old ||| v)
  | 0x10 => some (if so ≤ sv then old else v)
  | 0x14 => some (if sv ≤ so then old else v)
  | 0x18 => some (min old v)
  | 0x1C => some (max old v)
  | _ => none

/-! ## CSRs (R264) -/

/-- R264: xwin. With Rounds stopped no window is open and it reads 0. -/
def xwinVal (s : State) (x : Ctx) : Nat :=
  match s.round.win with
  | none => 0
  | some k =>
    let own := if k = 0 then Ctx.d else Ctx.t
    k + 8 * ctxNum own + (if own = x then 16 else 0)

/-- R264: the value of a CSR, and whether it may be written; none for a CSR the hart does not have.
Log entry 30, DEDUCED. -/
def csrRead (s : State) (c : Nat) (x : Ctx) (n : Nat) : Option (W64 × Bool) :=
  let h := s.cc c x
  match n with
  | 0xC00 => some (BitVec.ofNat 64 (s.dieCycles (dieOf c) - h.cyc0), false)
  | 0xC01 => some (BitVec.ofNat 64 s.now, false)
  | 0xC02 => some (h.instret, false)
  | 0x304 => some (0, true)
  | 0x305 => some (0, true)
  | 0x344 => some (0, true)
  | 0xF14 => some (BitVec.ofNat 64 (2 * c + ctxNum x), false)
  | 0xFC0 => some (s.round.num, false)
  | 0xFC1 => some (BitVec.ofNat 64 (xwinVal s x), false)
  | 0xFC2 => some (BitVec.ofNat 64 (c + 128 * ctxNum x), false)
  | _ => none

/-! ## Expansion of compressed instructions -/

def encR (op f3 f7 rd rs1 rs2 : Nat) : Nat := op + rd * 128 + f3 * 4096 + rs1 * 32768 + rs2 * 1048576 + f7 * 33554432
def encI (op f3 rd rs1 : Nat) (imm : Int) : Nat :=
  op + rd * 128 + f3 * 4096 + rs1 * 32768 + (imm % 4096).toNat * 1048576
def encS (op f3 rs1 rs2 imm : Nat) : Nat :=
  op + imm % 32 * 128 + f3 * 4096 + rs1 * 32768 + rs2 * 1048576 + imm / 32 % 128 * 33554432
def encB (f3 rs1 rs2 : Nat) (imm : Int) : Nat :=
  let i := (imm % 8192).toNat
  0x63 + (i / 2048 % 2) * 128 + (i / 2 % 16) * 256 + f3 * 4096 + rs1 * 32768 + rs2 * 1048576 +
    (i / 32 % 64) * 33554432 + (i / 4096 % 2) * 2147483648
def encJ (rd : Nat) (imm : Int) : Nat :=
  let i := (imm % 2097152).toNat
  0x6F + rd * 128 + (i / 4096 % 256) * 4096 + (i / 2048 % 2) * 1048576 + (i / 2 % 1024) * 2097152 +
    (i / 1048576 % 2) * 2147483648

/-- The bits of a compressed immediate, each (source bit, target bit). -/
def gather (h : Nat) (l : List (Nat × Nat)) : Nat := l.foldl (fun a e => a + h / 2 ^ e.1 % 2 * 2 ^ e.2) 0

/-- RV64C without floating point: the 32-bit instruction, or none when the parcel is illegal or reserved. -/
def expandC (h : Nat) : Option Nat :=
  let rdf := bitsOf h 7 5
  let rs2f := bitsOf h 2 5
  let rdq := 8 + bitsOf h 7 3
  let rs2q := 8 + bitsOf h 2 3
  let imm6 := gather h [(2, 0), (3, 1), (4, 2), (5, 3), (6, 4), (12, 5)]
  let simm6 := signedOf imm6 6
  let jImm := signedOf (gather h [(2, 5), (3, 1), (4, 2), (5, 3), (6, 7), (7, 6), (8, 10), (9, 8), (10, 9), (11, 4),
    (12, 11)]) 12
  let bImm := signedOf (gather h [(2, 5), (3, 1), (4, 2), (5, 6), (6, 7), (10, 3), (11, 4), (12, 8)]) 9
  let lwImm := gather h [(5, 6), (6, 2), (10, 3), (11, 4), (12, 5)]
  let ldImm := gather h [(5, 6), (6, 7), (10, 3), (11, 4), (12, 5)]
  match h % 4, bitsOf h 13 3 with
  | 0, 0 =>
    let i := gather h [(5, 3), (6, 2), (7, 6), (8, 7), (9, 8), (10, 9), (11, 4), (12, 5)]
    if i = 0 then none else some (encI 0x13 0 rs2q 2 i)
  | 0, 2 => some (encI 0x03 2 rs2q rdq lwImm)
  | 0, 3 => some (encI 0x03 3 rs2q rdq ldImm)
  | 0, 6 => some (encS 0x23 2 rdq rs2q lwImm)
  | 0, 7 => some (encS 0x23 3 rdq rs2q ldImm)
  | 1, 0 => some (encI 0x13 0 rdf rdf simm6)
  | 1, 1 => if rdf = 0 then none else some (encI 0x1B 0 rdf rdf simm6)
  | 1, 2 => some (encI 0x13 0 rdf 0 simm6)
  | 1, 3 =>
    if rdf = 2 then
      let i := signedOf (gather h [(2, 5), (3, 7), (4, 8), (5, 6), (6, 4), (12, 9)]) 10
      if i = 0 then none else some (encI 0x13 0 2 2 i)
    else if imm6 = 0 then none
    else some (0x37 + rdf * 128 + (simm6 % 1048576).toNat * 4096)
  | 1, 4 =>
    match bitsOf h 10 2 with
    | 0 => some (encI 0x13 5 rdq rdq imm6)
    | 1 => some (encI 0x13 5 rdq rdq (imm6 + 1024))
    | 2 => some (encI 0x13 7 rdq rdq simm6)
    | _ =>
      match bitOf h 12, bitsOf h 5 2 with
      | false, 0 => some (encR 0x33 0 0x20 rdq rdq rs2q)
      | false, 1 => some (encR 0x33 4 0 rdq rdq rs2q)
      | false, 2 => some (encR 0x33 6 0 rdq rdq rs2q)
      | false, _ => some (encR 0x33 7 0 rdq rdq rs2q)
      | true, 0 => some (encR 0x3B 0 0x20 rdq rdq rs2q)
      | true, 1 => some (encR 0x3B 0 0 rdq rdq rs2q)
      | true, _ => none
  | 1, 5 => some (encJ 0 jImm)
  | 1, 6 => some (encB 0 rdq 0 bImm)
  | 1, 7 => some (encB 1 rdq 0 bImm)
  | 2, 0 => some (encI 0x13 1 rdf rdf imm6)
  | 2, 2 =>
    if rdf = 0 then none
    else some (encI 0x03 2 rdf 2 (gather h [(2, 6), (3, 7), (4, 2), (5, 3), (6, 4), (12, 5)] : Nat))
  | 2, 3 =>
    if rdf = 0 then none
    else some (encI 0x03 3 rdf 2 (gather h [(2, 6), (3, 7), (4, 8), (5, 3), (6, 4), (12, 5)] : Nat))
  | 2, 4 =>
    match bitOf h 12 with
    | false => if rs2f = 0 then (if rdf = 0 then none else some (encI 0x67 0 0 rdf 0)) else some (encR 0x33 0 0 rdf 0 rs2f)
    | true =>
      if rs2f = 0 then (if rdf = 0 then some 0x00100073 else some (encI 0x67 0 1 rdf 0))
      else some (encR 0x33 0 0 rdf rdf rs2f)
  | 2, 6 => some (encS 0x23 2 2 rs2f (gather h [(7, 6), (8, 7), (9, 2), (10, 3), (11, 4), (12, 5)]))
  | 2, 7 => some (encS 0x23 3 2 rs2f (gather h [(7, 6), (8, 7), (9, 8), (10, 3), (11, 4), (12, 5)]))
  | _, _ => none

/-! ## Xweave decoding (R268) -/

/-- R268: an instruction of the custom-0 or custom-1 opcode. -/
def xweave (s : State) (c : Nat) (x : Ctx) (w : Nat) : State :=
  let f3 := bitsOf w 12 3
  let f7 := bitsOf w 25 7
  let rd := bitsOf w 7 5
  let a := s.xreg c x (bitsOf w 15 5)
  let b := s.xreg c x (bitsOf w 20 5)
  let illegal := haltHart s c x 0x01 0 3
  if w % 128 = 0x0B then
    match f3 with
    | 0 => if rd != 0 || 8 ≤ f7 then illegal else doQpush s c x f7 (wordOf a b)
    | 1 => if 8 ≤ f7 then illegal else doQpushnb s c x rd f7 (wordOf a b)
    | 2 => if 8 ≤ f7 then illegal else doQcred s c x rd f7
    | 3 => if f7 != 0 then illegal else doCpop s c x rd
    | 4 => if f7 != 0 then illegal else doMpop s c x rd a
    | 5 => if f7 = 0 then doXflag s c x rd none else if f7 = 1 then doXflag s c x rd (some a) else illegal
    | 6 => if rd != 0 || 64 ≤ f7 then illegal else doXfence s c x f7
    | _ => illegal
  else if f7 != 0 then illegal
  else
    match f3 with
    | 0 => doScrd s c x rd a
    | 1 => if rd != 0 then illegal else doScadd s c x a b
    | 2 => if rd != 0 then illegal else doScset s c x a b
    | 3 => doScwait s c x rd a b
    | 4 => if rd != 0 then illegal else doXbar s c x a b
    | _ => illegal

/-! ## One instruction -/

def immI (w : Nat) : Int := signedOf (bitsOf w 20 12) 12
def immS (w : Nat) : Int := signedOf (bitsOf w 25 7 * 32 + bitsOf w 7 5) 12
def immB (w : Nat) : Int :=
  signedOf (bitsOf w 31 1 * 4096 + bitsOf w 7 1 * 2048 + bitsOf w 25 6 * 32 + bitsOf w 8 4 * 2) 13
def immU (w : Nat) : Int := signedOf (w / 4096 % 1048576 * 4096) 32
def immJ (w : Nat) : Int :=
  signedOf (bitsOf w 31 1 * 1048576 + bitsOf w 12 8 * 4096 + bitsOf w 20 1 * 2048 + bitsOf w 21 10 * 2) 21

def branchTaken (f3 : Nat) (a b : W64) : Option Bool :=
  match f3 with
  | 0 => some (a == b)
  | 1 => some (a != b)
  | 4 => some (a.slt b)
  | 5 => some (!a.slt b)
  | 6 => some (a.ult b)
  | 7 => some (!a.ult b)
  | _ => none

/-- A load of 2^k bytes, sign- or zero-extended. -/
def doLoad (s : State) (c : Nat) (x : Ctx) (rd a k : Nat) (sgn : Bool) (pc' : W64) : State :=
  let n := 2 ^ k
  hartCheck s c x [0x02, 0x03] a 1 (loadFault s c x a n) fun s =>
    scalarRead s c x a n 1 fun s =>
      let v := ofLe (scalarBytes s c x a n)
      hartRetire (s.setXreg c x rd (if sgn then BitVec.ofInt 64 (signedOf v (8 * n)) else BitVec.ofNat 64 v)) c x pc'

def doStore (s : State) (c : Nat) (x : Ctx) (a k : Nat) (v : W64) (pc' : W64) : State :=
  hartCheck s c x [0x02, 0x03] a 2 (storeFault s c x a (2 ^ k)) fun s =>
    hartRetire (scalarStore s c x a (2 ^ k) v.toNat) c x pc'

/-- A funct5 of the A extension; LR has an rs2 of 0. -/
def amoLegal (f5 rs2 : Nat) : Bool := f5 == 0x03 || (f5 == 0x02 && rs2 == 0) || (amoOp f5 32 0 0).isSome
/-- R262: LR, SC and the AMOs, on 2^k bytes; a reserved encoding is illegal whatever its address (R285).
Log entry 30, DEDUCED. -/
def doAmo (s : State) (c : Nat) (x : Ctx) (f5 rd a k : Nat) (rs2 : Nat) (pc' : W64) : State :=
  let n := 2 ^ k
  let v := (s.xreg c x rs2).toNat % 2 ^ (8 * n)
  if !amoLegal f5 rs2 then haltHart s c x 0x01 0 3
  else hartCheck s c x [0x02, 0x03] a 2 (storeFault s c x a n) fun s =>
    let off := a - dmBase
    if f5 = 0x03 then
      let h := s.cc c x
      let ok := h.resv == some off
      let s1 := s.setCc c x { h with resv := none }
      let s2 := if ok then scalarStore s1 c x a n v else s1
      hartRetire (s2.setXreg c x rd (if ok then 0 else 1)) c x pc'
    else
      scalarRead s c x a n 1 fun s =>
        let old := ofLe (scalarBytes s c x a n)
        let res := BitVec.ofInt 64 (signedOf old (8 * n))
        if f5 = 0x02 then
          hartRetire ((s.setCc c x { s.cc c x with resv := some off }).setXreg c x rd res) c x pc'
        else
          match amoOp f5 (8 * n) old v with
          | none => haltHart s c x 0x01 0 3
          | some nv => hartRetire ((scalarStore s c x a n nv).setXreg c x rd res) c x pc'

/-- R264: a Zicsr instruction. Log entry 30, DEDUCED. -/
def doCsr (s : State) (c : Nat) (x : Ctx) (w : Nat) (pc' : W64) : State :=
  let f3 := bitsOf w 12 3
  let rs1 := bitsOf w 15 5
  let rd := bitsOf w 7 5
  let writes := f3 % 4 == 1 || rs1 != 0
  match csrRead s c x (bitsOf w 20 12) with
  | none => haltHart s c x 0x01 0 3
  | some (v, ok) =>
    if writes && !ok then haltHart s c x 0x01 0 3
    else hartRetire (s.setXreg c x rd v) c x pc'

/-- The effect of the 32-bit instruction w, which took `len` bytes at the pc. -/
def rvBody (s : State) (c : Nat) (x : Ctx) (w len : Nat) : State :=
  let h := s.cc c x
  let pc := h.pc
  let pc' := pc + BitVec.ofNat 64 len
  let rd := bitsOf w 7 5
  let f3 := bitsOf w 12 3
  let f7 := bitsOf w 25 7
  let a := h.x (bitsOf w 15 5)
  let b := h.x (bitsOf w 20 5)
  let illegal := haltHart s c x 0x01 0 3
  let res (v : W64) : State := hartRetire (s.setXreg c x rd v) c x pc'
  let addr (i : Int) : Nat := (a + BitVec.ofInt 64 i).toNat
  match w % 128 with
  | 0x37 => res (BitVec.ofInt 64 (immU w))
  | 0x17 => res (pc + BitVec.ofInt 64 (immU w))
  | 0x6F => hartRetire (s.setXreg c x rd pc') c x (pc + BitVec.ofInt 64 (immJ w))
  | 0x67 =>
    if f3 != 0 then illegal
    else hartRetire (s.setXreg c x rd pc') c x ((a + BitVec.ofInt 64 (immI w)) &&& ~~~(1#64))
  | 0x63 =>
    match branchTaken f3 a b with
    | none => illegal
    | some t => hartRetire s c x (if t then pc + BitVec.ofInt 64 (immB w) else pc')
  | 0x03 => if f3 = 7 then illegal else doLoad s c x rd (addr (immI w)) (f3 % 4) (f3 < 4) pc'
  | 0x23 => if 4 ≤ f3 then illegal else doStore s c x (addr (immS w)) f3 b pc'
  | 0x13 =>
    match f3 with
    | 1 => if bitsOf w 26 6 != 0 then illegal else res (aluOp 0 1 a (BitVec.ofNat 64 (bitsOf w 20 6)))
    | 5 =>
      if bitsOf w 26 6 = 0 then res (aluOp 0 5 a (BitVec.ofNat 64 (bitsOf w 20 6)))
      else if bitsOf w 26 6 = 0x10 then res (aluOp 1 5 a (BitVec.ofNat 64 (bitsOf w 20 6)))
      else illegal
    | _ => res (aluOp 0 f3 a (BitVec.ofInt 64 (immI w)))
  | 0x1B =>
    match f3 with
    | 0 => res (sext32 (a + BitVec.ofInt 64 (immI w)))
    | 1 | 5 =>
      let g := if f7 = 0 then 0 else if f7 = 0x20 && f3 = 5 then 1 else 3
      match aluOpW g f3 a (BitVec.ofNat 64 (bitsOf w 20 5)) with
      | none => illegal
      | some v => res v
    | _ => illegal
  | 0x33 =>
    if f7 = 0 then res (aluOp 0 f3 a b)
    else if f7 = 1 then res (aluOp 2 f3 a b)
    else if f7 = 0x20 && (f3 = 0 || f3 = 5) then res (aluOp 1 f3 a b)
    else illegal
  | 0x3B =>
    match aluOpW (if f7 = 0 then 0 else if f7 = 1 then 2 else if f7 = 0x20 then 1 else 3) f3 a b with
    | none => illegal
    | some v => res v
  | 0x2F => if f3 = 2 || f3 = 3 then doAmo s c x (bitsOf w 27 5) rd a.toNat f3 (bitsOf w 20 5) pc' else illegal
  | 0x0F => if f3 ≤ 1 then hartRetire s c x pc' else illegal
  | 0x73 =>
    if f3 = 0 then
      if w = 0x00000073 then doEcall s c x
      else if w = 0x00100073 then doEbreak s c x
      else if w = 0x10500073 then doWfi s c x
      else illegal
    else if f3 = 4 then illegal
    else doCsr s c x w pc'
  | 0x0B => xweave s c x w
  | 0x2B => xweave s c x w
  | _ => illegal

/-- R285: the check whether the instruction is legal, which an injection can make fail, and its effect.
Log entry 30, DEDUCED. -/
def rvExec (s : State) (c : Nat) (x : Ctx) (w len : Nat) : State :=
  hartCheck s c x [0x01] 0 3 none fun s => rvBody s c x w len
/-- R261, R263: the second half of a 4-byte instruction, in a word of its own where the instruction straddles two. -/
def fetchUpper (s : State) (c : Nat) (x : Ctx) (pc : Nat) (go : State → State) : State :=
  hartCheck s c x [0x03] (pc + 2) 3 (codeIf (!inIm s c x pc 4) 0x03) fun s =>
    if pc % 4 = 0 then go s else scalarRead s c x (pc + 2) 2 3 go
/-- R256, R261, R263: fetch and execution of the instruction at the hart's pc.
Log entry 18, DEDUCED; 95, DESIGN CHOICE. -/
def hartStep (s : State) (c : Nat) (x : Ctx) : State :=
  let pc := (s.cc c x).pc.toNat
  hartCheck s c x [0x03] pc 3 (codeIf (!inIm s c x pc 2) 0x03) fun s =>
    scalarRead s c x pc 2 3 fun s =>
      let lo := ofLe (scalarBytes s c x pc 2)
      if lo % 4 = 3 then fetchUpper s c x pc fun s => rvExec s c x (ofLe (scalarBytes s c x pc 4)) 4
      else
        match expandC lo with
        | none => hartCheck s c x [0x01] 0 3 (some 0x01) id
        | some w => rvExec s c x w 2

def execHartInstruction (core : CoreId) (ctx : Ctx) (s : State) : Host.Outcome State Fault Refusal :=
  ifGo s core ctx fun s => hartStep s core ctx

end Sys2Proof.Machine
end

