-- ==== Sys2Proof/Machine/Operands.lean ====
section
/-! DEFINITION. Sys2Proof/Machine/Operands.lean: descriptors, the loop nest, tiles and streams (R313 to R329, R368 to
R375), and the partition checks of R329 and R400. -/

namespace Sys2Proof.Machine

/-! ## Descriptors -/

/-- A stream slot of a loop descriptor (R320). -/
structure Slot where
  odx : Nat
  strides : List Int
  resv : Bool
deriving DecidableEq, Repr

/-- A loop descriptor (R318, R319). -/
structure LoopD where
  nlev : Nat
  rmask : Nat
  rseg : Nat
  klen : Nat
  counts : List Nat
  slots : List Slot
  imm0 : Nat
  imm1 : Nat
  resv : Bool
deriving DecidableEq, Repr

/-- An operand descriptor (R324, R325). -/
structure OpD where
  linear : Bool
  space : Nat
  baxis : Nat
  orient : Nat
  conv : Nat
  fmt : Nat
  base : Nat
  sbase : Nat
  tcols : Nat
  tpitch : Nat
  extc : Nat
  extr : Nat
  suboff : Int
  endpoint : Nat
  scale : Nat
  resv : Bool
deriving DecidableEq, Repr

/-- R320: a slot from its 16 bytes read as a number. -/
def slotOf (n : Nat) : Slot :=
  { odx := bitsOf n 0 10
    strides := (upto 6).map fun l => signedOf (bitsOf n (32 + 16 * l) 16) 16
    resv := bitsOf n 10 6 != 0 || bitsOf n 16 16 != 0 }

/-- R318, R319: a loop descriptor from its 128 bytes read as a number. -/
def loopOf (n : Nat) : LoopD :=
  { nlev := bitsOf n 0 3
    rmask := bitsOf n 3 6
    rseg := bitsOf n 9 2
    klen := bitsOf n 11 21
    counts := (upto 6).map fun l => bitsOf n (64 + 32 * l) 32
    slots := (upto 5).map fun k => slotOf (bitsOf n (256 + 128 * k) 128)
    imm0 := bitsOf n 896 32
    imm1 := bitsOf n 928 32
    resv := bitsOf n 32 32 != 0 || bitsOf n 960 64 != 0 }

/-- R324, R325: an operand descriptor from its 32 bytes read as a number. -/
def opdOf (n : Nat) : OpD :=
  let space := bitsOf n 57 2
  { linear := bitOf n 59
    space := space
    baxis := bitsOf n 56 1
    orient := bitsOf n 55 1
    conv := bitsOf n 52 3
    fmt := bitsOf n 48 4
    base := bitsOf n 0 48
    sbase := bitsOf n 64 48
    tcols := bitsOf n 112 16
    tpitch := bitsOf n 176 16
    extc := bitsOf n 152 24
    extr := bitsOf n 128 24
    suboff := if space = 2 then 0 else signedOf (bitsOf n 224 16) 16
    endpoint := bitsOf n 224 20
    scale := bitsOf n 192 32
    resv := bitsOf n 60 4 != 0 || bitsOf n 244 12 != 0 || (space < 2 && bitsOf n 240 4 != 0) }

def dtcfg (s : State) (c : Nat) (x : Ctx) : Nat × Nat × Nat :=
  match x with
  | .d => (s.fget (R.DTCFGD_TBASE c), s.fget (R.DTCFGD_OCNT c), s.fget (R.DTCFGD_LCNT c))
  | .t => (s.fget (R.DTCFGT_TBASE c), s.fget (R.DTCFGT_OCNT c), s.fget (R.DTCFGT_LCNT c))
/-- R313: partition offsets of the descriptors. -/
def loopOff (s : State) (c : Nat) (x : Ctx) (j : Nat) : Nat := (dtcfg s c x).1 * 4096 + 128 * j
def opdOff (s : State) (c : Nat) (x : Ctx) (j : Nat) : Nat :=
  (dtcfg s c x).1 * 4096 + 128 * (dtcfg s c x).2.2 + 32 * j
def readLoop (s : State) (c : Nat) (x : Ctx) (j : Nat) : LoopD :=
  loopOf (ofLe (cellsGet (s.cc c x).dmem (loopOff s c x j) 128))
def readOpd (s : State) (c : Nat) (x : Ctx) (j : Nat) : OpD :=
  opdOf (ofLe (cellsGet (s.cc c x).dmem (opdOff s c x j) 32))

/-! ## The loop nest (R321, R322) -/

/-- Counts of the active levels. -/
def LoopD.active (l : LoopD) : List Nat := l.counts.take l.nlev
/-- Some active count is zero (R360). -/
def LoopD.zero (l : LoopD) : Bool := l.active.any (· == 0)
def prod : List Nat → Nat
  | [] => 1
  | n :: r => n * prod r
/-- The number of reduction levels: RMASK must be the lowest r levels (R323). -/
def LoopD.rlev (l : LoopD) : Nat := popcount 6 l.rmask
def LoopD.rmaskOk (l : LoopD) : Bool := l.rmask == 2 ^ l.rlev - 1 && decide (l.rlev ≤ l.nlev)
/-- R332: M, the product of the counts of the active levels whose RMASK bit is clear. -/
def LoopD.matN (l : LoopD) : Nat :=
  prod (((upto 6).zip l.active).filterMap fun e => if bitOf l.rmask e.1 then none else some e.2)
/-- Iterations of the reduction levels, and of the others. -/
def LoopD.redN (l : LoopD) : Nat := prod (l.active.take l.rlev)
def LoopD.outN (l : LoopD) : Nat := prod (l.active.drop l.rlev)

/-- The indices of iteration k, innermost level first. -/
def unrank : List Nat → Nat → List Nat
  | [], _ => []
  | n :: r, k => (if n = 0 then 0 else k % n) :: unrank r (if n = 0 then 0 else k / n)
def dot : List Int → List Nat → Int
  | a :: r, b :: t => a * b + dot r t
  | _, _ => 0
/-- R322: the position of a stream at iteration k. -/
def LoopD.pos (l : LoopD) (sl : Slot) (k : Nat) : Int := dot sl.strides (unrank l.active k)
/-- The position at iteration k of the non-reduction levels alone (R344). -/
def LoopD.outPos (l : LoopD) (sl : Slot) (k : Nat) : Int :=
  dot (sl.strides.drop l.rlev) (unrank (l.active.drop l.rlev) k)
/-- The lowest and highest position over the levels (R329). -/
def extremes : List Int → List Nat → Int × Int
  | a :: r, n :: t =>
    let q := extremes r t
    let d := a * (n - 1 : Nat)
    if d < 0 then (q.1 + d, q.2) else (q.1, q.2 + d)
  | _, _ => (0, 0)

/-! ## Tiles (R114, R326, R372 to R374) -/

/-- R372: words per row of a skewed tile. -/
def Fmt.w : Fmt → Nat
  | .fp32 => 16 | .bf16 => 8 | .fp16 => 8 | .mx4e2m1 => 2 | _ => 4
/-- R372: bytes of one linear row. -/
def Fmt.row (f : Fmt) : Nat := 4 * f.bits
/-- R372: bytes of a tile. -/
def Fmt.tile (f : Fmt) (linear : Bool) : Nat := if linear then 32 * f.row else 256 * f.w

/-- R373, R374: the address of byte b of row i of a tile. -/
def tileByte (f : Fmt) (linear : Bool) (base i b : Nat) : Nat :=
  if linear then base + i * f.row + b
  else
    let wi := f.w * i
    base + 256 * (wi / 32) + 8 * ((wi + b / 8 + wi / 32) % 32) + b % 8

/-- R114: the bytes of element j of a row, and the bit at which it starts in the first. -/
def elemSpan (f : Fmt) (j : Nat) : Nat × Nat × Nat :=
  let bit := f.bits * j
  (bit / 8, (bit + f.bits - 1) / 8 - bit / 8 + 1, bit % 8)

/-- A stream of an instruction: its slot and its latched operand descriptor. -/
structure Strm where
  sl : Slot
  od : OpD
  f : Fmt
deriving DecidableEq, Repr

/-- The device address of an address in a descriptor's space (R324, R369). -/
def spaceAddr (c : Nat) (space a : Nat) : Nat := if space = 0 then lsBase c + a else a

/-- R326: the address of tile t in its space; an address below 0 does not exist. -/
def OpD.tileAt (o : OpD) (t : Int) : Int := (o.base : Int) + t * (o.tpitch * 64 : Nat)
/-- R326: element (i, j) of tile t lies outside the extent. TCOLS 0 disables clipping. -/
def OpD.outside (o : OpD) (t : Int) (i j : Nat) : Bool :=
  if o.tcols = 0 then false
  else
    let r : Int := 32 * (t / o.tcols) + i
    let k : Int := 32 * (t % o.tcols) + j
    decide (r ≥ o.extr) || decide (k ≥ o.extc)

/-- The block of element (i, j) under the block axis (R324). -/
def OpD.block (o : OpD) (i j : Nat) : Nat := if o.baxis = 0 then i else j

/-- The stored bits of element (i, j) of the tile at device address `a`. -/
def elemBits (s : State) (f : Fmt) (linear : Bool) (a i j : Nat) : Nat :=
  let sp := elemSpan f j
  bitsOf (ofLe ((upto sp.2.1).map fun k => tget 0 s.mem (tileByte f linear a i (sp.1 + k)))) sp.2.2 f.bits
def elemPoison (s : State) (f : Fmt) (linear : Bool) (a i j : Nat) : Bool :=
  let sp := elemSpan f j
  (upto sp.2.1).any fun k => s.poison.contains (tileByte f linear a i (sp.1 + k) / 4)

/-- The value of element (i, j) of tile t of a stream; a poisoned word reads as NaN (R112, R113, R398). `off` is added
to the tile's address (R152). Log entry 88, DEDUCED. -/
def Strm.value (s : State) (c : Nat) (st : Strm) (t : Int) (off : Int) (i j : Nat) : FVal :=
  let a := (st.od.tileAt t + off).toNat
  let d := spaceAddr c st.od.space a
  if elemPoison s st.f st.od.linear d i j then .nan
  else
    let b := elemBits s st.f st.od.linear d i j
    if st.f.isMx then
      let sa := spaceAddr c st.od.space ((st.od.sbase : Int) + 32 * t + st.od.block i j).toNat
      if s.poison.contains (sa / 4) then .nan
      else st.f.decodeMx (tget 0 s.mem sa).toNat b
    else st.f.decode b

/-- Placing element bits into the bytes of a row: the (address, byte) pairs after the write, over what memory holds. -/
def putElem (f : Fmt) (linear : Bool) (a : Nat) (m : List Host.Cell) (i j v : Nat) : List Host.Cell :=
  let sp := elemSpan f j
  let old := ofLe ((upto sp.2.1).map fun k => tget 0 m (tileByte f linear a i (sp.1 + k)))
  let new := leBytes sp.2.1 (setBits old sp.2.2 f.bits v)
  ((upto sp.2.1).zip new).foldl (fun m e => tput 0 m (tileByte f linear a i (sp.1 + e.1)) e.2) m

/-- The byte addresses an element occupies. -/
def elemAddrs (f : Fmt) (linear : Bool) (a i j : Nat) : List Nat :=
  let sp := elemSpan f j
  (upto sp.2.1).map fun k => tileByte f linear a i (sp.1 + k)

/-! ## Partitions (R329, R400) -/

/-- The context's local-store range on a core, in bytes of the core's local store. -/
def lsPart (s : State) (c : Nat) (x : Ctx) : Nat × Nat :=
  match x with
  | .d => (s.fget (R.LSPARTD_BASE c) * 65536, s.fget (R.LSPARTD_LEN c) * 65536)
  | .t => (s.fget (R.LSPARTT_BASE c) * 65536, s.fget (R.LSPARTT_LEN c) * 65536)
def hbmPart (s : State) (k : Nat) (x : Ctx) : Nat × Nat :=
  match x with
  | .d => (s.fget (R.HBMPD_BASE k) * 0x4000000, s.fget (R.HBMPD_LEN k) * 0x4000000)
  | .t => (s.fget (R.HBMPT_BASE k) * 0x4000000, s.fget (R.HBMPT_LEN k) * 0x4000000)
def cxlPart (s : State) (p : Nat) (x : Ctx) : Nat × Nat :=
  match x with
  | .d => (s.fget (R.CXLPD_BASE p) * 0x40000000, s.fget (R.CXLPD_LEN p) * 0x40000000)
  | .t => (s.fget (R.CXLPT_BASE p) * 0x40000000, s.fget (R.CXLPT_LEN p) * 0x40000000)
def within (r : Nat × Nat) (a n : Nat) : Bool := decide (r.1 ≤ a) && decide (a + n ≤ r.1 + r.2)

/-- R400: n bytes at a device address lie in the context's partition. -/
def granted (s : State) (x : Ctx) (a n : Nat) : Bool :=
  match tierOf a with
  | none => false
  | some (.hbm k) => within (hbmPart s k x) (a - stackBase k) n
  | some (.ls c) => within (lsPart s c x) (a - lsBase c) n
  | some (.cxl p) => within (cxlPart s p x) (a - cxlBase p) n
  | some (.hostWin w) => s.jhas x 0x23 w

/-- The context that owns a device address (R386). -/
def ownerOf (s : State) (a : Nat) : Option Ctx :=
  if granted s .d a 1 then some .d else if granted s .t a 1 then some .t else none

/-- R610: the endpoint lies in a block that the manifest's type-0x30 record for an I/O die declares. -/
def endpointAt (s : State) (x : Ctx) (iod ep : Nat) : Bool :=
  let v := (s.jrange x 0x30 iod).1
  s.jhas x 0x30 iod && within (bitsOf v 16 12, bitsOf v 0 13) (ep / 256) 1
/-- R610: the same of either I/O die. -/
def endpointGranted (s : State) (x : Ctx) (ep : Nat) : Bool := [0, 1].any fun iod => endpointAt s x iod ep

/-- The lowest and highest byte a stream touches over tiles tlo to thi, for `len` bytes at each tile address (R329).
`sub` bounds the sub-array offsets. -/
def spanOf (o : OpD) (tlo thi : Int) (len : Nat) (sub : Int × Int) : Int × Int :=
  (o.tileAt tlo + sub.1, o.tileAt thi + sub.2 + len - 1)
def scaleSpan (o : OpD) (tlo thi : Int) : Int × Int := ((o.sbase : Int) + 32 * tlo, (o.sbase : Int) + 32 * thi + 31)

/-- R329: both ends of a byte span lie in what the manifest grants in the descriptor's space. -/
def spanGranted (s : State) (c : Nat) (x : Ctx) (o : OpD) (sp : Int × Int) : Bool :=
  if sp.1 < 0 then false
  else
    match o.space with
    | 0 => within (lsPart s c x) sp.1.toNat 1 && within (lsPart s c x) sp.2.toNat 1
    | 1 => granted s x sp.1.toNat 1 && granted s x sp.2.toNat 1
    | _ => decide (sp.2.toNat < 0x100000000000)

/-- R375: placement of tiles and scale arrays. -/
def placed (o : OpD) (f : Fmt) : Bool :=
  (if o.linear then o.base % 64 == 0 else o.base % 256 == 0 && o.tpitch % 4 == 0) &&
  decide (f.tile o.linear ≤ o.tpitch * 64) && (!f.isMx || o.sbase % 32 == 0)

/-! ## Poisoned words a stream reads (R398) -/

/-- The poisoned words among n bytes at device address a. -/
def poisonIn (s : State) (a n : Nat) : List Nat := (wordsOf a n).filter s.poison.contains

/-- R386: a Contained report of the context whose partition holds the address, or of the host function. -/
def State.reportMem (s : State) (det unit cause a m : Nat) : State :=
  s.reportFrom .contained det unit cause (match ownerOf s a with | some x => ctxParty x | none => .host) 1 a m false

/-- The set of a shared cache that a line maps to; bits [23:8] of the address choose it. -/
def lineKey (num : Nat) : Nat := num / (stackBase 1 / 256) * 65536 + num % 65536
def State.lines (s : State) (num : Nat) : List Line := tget [] s.cache (lineKey num)
def State.setLines (s : State) (num : Nat) (l : List Line) : State := { s with cache := tput [] s.cache (lineKey num) l }
def State.line? (s : State) (num : Nat) : Option Line := (s.lines num).find? (·.num == num)
/-- The line is present in its shared cache. -/
def State.cached (s : State) (num : Nat) : Bool := (s.line? num).isSome

/-- R400: an access of a unit of a context outside its partition. -/
def partitionFault (s : State) (unit : Nat) (x : Ctx) (acc a m : Nat) (inj : Bool) : State :=
  s.reportFrom .contained 0x22 unit acc (ctxParty x) acc a m inj
/-- R386, R389, R398: each poisoned word read raises a Contained fault under R386; `m` is the reader's
endpoint (R785). -/
def reportPoison (s : State) (words : List Nat) (m : Nat) : State :=
  words.foldl (fun s w =>
    let a := 4 * w
    match tierOf a with
    | some (.hbm k) =>
      if s.cached (a / 256) then (s.bump (R.MEMUNC (k / 2))).reportMem 0x18 k 2 a m else s.reportMem 0x20 k 2 a m
    | some (.ls c) => (s.bump (R.MEMUNC (dieOf c))).reportMem 0x17 c 2 a m
    | some (.cxl p) => s.reportFrom .contained 0x21 p 1 (match ownerOf s a with | some x => ctxParty x | none => .host) 1 a m false
    | _ => s) s

end Sys2Proof.Machine
end

