-- ==== Sys2Proof/Machine/Curves.lean ====
section
/-! DEFINITION. Sys2Proof/Machine/Curves.lean: the generators (R132 to R134, R234 to R241) and curve tables (R218 to
R226, R861). -/

namespace Sys2Proof.Machine

/-! ## Generators -/

/-- R235: one output and the next state. -/
def Rng.next (g : Rng) : W32 × Rng :=
  let out := (g.s0 + g.s3).rotateLeft 7 + g.s0
  let t := g.s1 <<< 9
  let s2 := g.s2 ^^^ g.s0
  let s3 := g.s3 ^^^ g.s1
  let s1 := g.s1 ^^^ s2
  let s0 := g.s0 ^^^ s3
  (out, ⟨s0, s1, s2 ^^^ t, s3.rotateLeft 11⟩)

/-- R237: splitmix64: the next z and the output. -/
def splitmix64 (z : W64) : W64 × W64 :=
  let z := z + 0x9E3779B97F4A7C15#64
  let x := (z ^^^ (z >>> 30)) * 0xBF58476D1CE4E5B9#64
  let x := (x ^^^ (x >>> 27)) * 0x94D049BB133111EB#64
  (z, x ^^^ (x >>> 31))

/-- A state that is never all zero (R237, R238). -/
def Rng.fix (g : Rng) : Rng := if g = ⟨0, 0, 0, 0⟩ then ⟨1, 0, 0, 0⟩ else g

/-- R237: the state of position p of core c from seed S and module seed index I. -/
def seedRng (seed : W64) (idx c p : Nat) : Rng :=
  let z := seed ^^^ (BitVec.ofNat 64 (idx * 65536 + c * 512 + p) * 0x9E3779B97F4A7C15#64)
  let a := splitmix64 z
  let b := splitmix64 a.1
  Rng.fix ⟨a.2.setWidth 32, (a.2 >>> 32).setWidth 32, b.2.setWidth 32, (b.2 >>> 32).setWidth 32⟩

def rngIdx (s : State) (x : Ctx) : Nat :=
  match s.job x with
  | none => 0
  | some j => j.seedIdx

/-- The state of a generator position of a context. A position that has not advanced since its seeding is not listed. -/
def rngAt (s : State) (c : Nat) (x : Ctx) (p : Nat) : Rng :=
  match (s.cc c x).rng.find? (·.1 == p) with
  | some e => e.2
  | none => seedRng (s.cc c x).seed (rngIdx s x) c p
def setRng (s : State) (c : Nat) (x : Ctx) (p : Nat) (g : Rng) : State :=
  s.setCc c x { s.cc c x with rng := tins (s.cc c x).rng p g }

/-- The generators as an instruction advances them: state, and the half output not yet used (R132, R236). -/
abbrev Draws := Tab (Rng × Option Nat)

/-- One 16-bit draw of a position (R132). -/
def draw (s : State) (c : Nat) (x : Ctx) (d : Draws) (p : Nat) : Nat × Draws :=
  let g := match d.find? (·.1 == p) with
    | some e => e.2
    | none => (rngAt s c x p, none)
  match g.2 with
  | some h => (h, tins d p (g.1, none))
  | none =>
    let r := g.1.next
    (r.1.toNat % 65536, tins d p (r.2, some (r.1.toNat / 65536)))
/-- A draw taken only under stochastic rounding (R134). -/
def drawIf (s : State) (c : Nat) (x : Ctx) (m : RMode) (d : Draws) (p : Nat) : Nat × Draws :=
  if m = .stoch then draw s c x d p else (0, d)
/-- The advanced states as effects; unused halves are discarded (R236). -/
def Draws.effs (d : Draws) : List Eff := d.map fun e => .rng e.1 e.2.1

/-- What an armed point of a generator's detector does when it fires: the state is unspecified until reseeded. -/
def rngFire (c : Nat) (x : Ctx) (s : State) (p : Nat × Nat) : State :=
  let i := s.freeIdx
  let s := setRng { s with freeIdx := i + 4 } c x (p.2 / 4)
    ⟨Config.freeWord i, Config.freeWord (i + 1), Config.freeWord (i + 2), Config.freeWord (i + 3)⟩
  s.reportFrom .contained 0x13 c p.1 (ctxParty x) 1 p.2 (s.endpoint (0x80 + c)) true
/-- R241: the check of the generator states an instruction uses. Log entry 6, DESIGN CHOICE. -/
def rngCheck (s : State) (c : Nat) (x : Ctx) (lo n : Nat) : State :=
  let pr := s.probeAll 0x13 c [2] (4 * lo) (fun a => decide (4 * lo ≤ a) && decide (a < 4 * (lo + n))) 16
  pr.1.foldl (rngFire c x) pr.2

/-! ## Curve tables -/

/-- A 32-bit word of a table (R219). -/
def tabWord (t : List Byte) (o : Nat) : FVal := of32 (ofLe ((t.drop o).take 4))
def tabByte (t : List Byte) (o : Nat) : Nat := (t.getD o 0).toNat

/-- R220: the polynomial of a segment at t. -/
def poly (tb : List Byte) (k : Nat) (t : FVal) : FVal :=
  let c (j : Nat) := tabWord tb (0x40 + 12 * k + 4 * j)
  (fma32 (fma32 (c 2) t (c 1)).1 t (c 0)).1

def fNat (n : Nat) : FVal := .fin false n 0
def fInt (n : Int) : FVal := .fin (decide (n < 0)) n.natAbs 0
/-- floor of a finite value. -/
def FVal.floor : FVal → Int
  | .fin s m e =>
    let v : Int := if s then -(m : Int) else m
    if e ≥ 0 then v * (2 ^ e.toNat : Nat) else v / (2 ^ (-e).toNat : Nat)
  | _ => 0

/-- R221: an out-of-range result; `hi` tells the side, `edge` is the clamp rule's value. -/
def oorResult (tb : List Byte) (hi : Bool) (x edge : FVal) : FVal :=
  let rule := if hi then tabByte tb 3 / 16 else tabByte tb 3 % 16
  let slope := tabWord tb (if hi then 0x18 else 0x10)
  let icpt := tabWord tb (if hi then 0x1C else 0x14)
  match rule with
  | 0 => edge
  | 1 => icpt
  | 2 => (fma32 slope x icpt).1
  | _ => .nan

/-- Segment and fraction of an index u in 0 to 256; one past the last segment has no stated result.
Log entry 24, DESIGN CHOICE. -/
def segResult (tb : List Byte) (x u : FVal) (fin : FVal → FVal) : FVal :=
  let k := u.floor.toNat
  if 256 ≤ k then of32 (Config.curveEdge tb (BitVec.ofNat 32 x.bits32)).toNat
  else fin (poly tb k (add32 u (fInt (-(k : Int)))).1)

/-- R220, R221: a table at an FP32 input. Log entry 24, DESIGN CHOICE. -/
def curveVal (tb : List Byte) (x : FVal) : FVal :=
  let invw := tabWord tb 0x08
  let p0 := poly tb 0 (fNat 0)
  let p255 := poly tb 255 (fNat 1)
  match tabByte tb 0 with
  | 0 =>
    let u := (mul32 (add32 x (tabWord tb 0x04).negate).1 invw).1
    if u.isNan then .nan
    else if u.lt (fNat 0) then oorResult tb false x p0
    else if !u.lt (fNat 256) then oorResult tb true x p255
    else segResult tb x u id
  | 1 =>
    let v := (mul32 x invw).1
    if v.isNan then .nan
    else if v.lt (fInt (-152)) then oorResult tb false x (round32 (p0.scale (-152))).1
    else if !v.lt (fNat 128) then oorResult tb true x (round32 (p255.scale 127)).1
    else
      let n := v.floor
      let u := (mul32 (add32 v (fInt (-n))).1 (fNat 256)).1
      segResult tb x u fun p => (round32 (p.scale n)).1
  | _ =>
    match x with
    | .nan => .nan
    | .inf true => .nan
    | .inf false => oorResult tb true x (fma32 invw (fInt 127) p255).1
    | .fin sg m e =>
      if m = 0 then oorResult tb false x (fma32 invw (fInt (-149)) p0).1
      else if sg then .nan
      else
        let lg := Nat.log2 m
        let u : FVal := addFin false m (8 - (lg : Int)) true 256 0
        segResult tb x u fun p => (fma32 invw (fInt (e + lg)) p).1

/-- R861: the flags of an evaluation. -/
def curveFlags (x y : FVal) : Fl :=
  x.inFlags ||| (if y.isNan && !x.isNan then Fl.nangen else 0) |||
  (match y, x with
   | .inf _, .fin .. => Fl.ovfnf
   | _, _ => 0)
def curveEval (tb : List Byte) (x : FVal) : FVal × Fl :=
  let y := curveVal tb x
  (y, curveFlags x y)

/-- The words of segment k of a table. -/
def segWords (k : Nat) : List Nat := [16 + 3 * k, 17 + 3 * k, 18 + 3 * k]
/-- The words an out-of-range rule reads beside the header's first three: `k` is the clamp's segment. -/
def oorReads (tb : List Byte) (hi : Bool) (k : Nat) : List Nat :=
  match (if hi then tabByte tb 3 / 16 else tabByte tb 3 % 16) with
  | 0 => segWords k
  | 1 => [if hi then 7 else 5]
  | 2 => if hi then [6, 7] else [4, 5]
  | _ => []
/-- The words of a table that an evaluation at x reads (R219 to R221, R224). -/
def curveReads (tb : List Byte) (x : FVal) : List Nat :=
  let invw := tabWord tb 0x08
  let seg (u : FVal) : List Nat := if u.floor.toNat < 256 then segWords u.floor.toNat else []
  match tabByte tb 0 with
  | 0 =>
    let u := (mul32 (add32 x (tabWord tb 0x04).negate).1 invw).1
    [0, 1, 2] ++ (if u.isNan then [] else if u.lt (fNat 0) then oorReads tb false 0
      else if !u.lt (fNat 256) then oorReads tb true 255 else seg u)
  | 1 =>
    let v := (mul32 x invw).1
    [0, 2] ++ (if v.isNan then [] else if v.lt (fInt (-152)) then oorReads tb false 0
      else if !v.lt (fNat 128) then oorReads tb true 255
      else seg (mul32 (add32 v (fInt (-v.floor))).1 (fNat 256)).1)
  | _ =>
    0 :: (match x with
      | .nan => []
      | .inf true => []
      | .inf false => 2 :: oorReads tb true 255
      | .fin sg m _ =>
        if m = 0 then 2 :: oorReads tb false 0
        else if sg then []
        else 2 :: seg (addFin false m (8 - (Nat.log2 m : Int)) true 256 0))

/-- A table as the evaluations of an instruction find it: its bytes, its words with an error, and those of them with an
uncorrectable one. -/
structure CurveView where
  tb : List Byte
  errs : List Nat
  dead : List Nat
deriving DecidableEq, Repr
/-- The words with an error that an evaluation at x reads. -/
def CurveView.met (v : CurveView) (x : FVal) : List Nat :=
  if v.errs.isEmpty then [] else (curveReads v.tb x).filter v.errs.contains
/-- R224: an evaluation that reads an uncorrectable word gives the canonical NaN. -/
def CurveView.eval (v : CurveView) (x : FVal) : FVal × Fl :=
  if (v.met x).any v.dead.contains then (.nan, curveFlags x .nan) else curveEval v.tb x

/-! ## Library tables (R218, R224) -/

/-- The header that R224 states for a library table: MODE, DKIND, DPAIR, OOR, XLO, INVW, LOINT, HISLOPE, HIINT. A word that
the table's rules do not use is 0. Log entry 92, DESIGN CHOICE. -/
def libHeader : Nat → List Nat
  | 20 => [0, 1, 21, 0x11, 0xC1800000, 0x41000000, 0, 0, 0x3F800000]
  | 21 => [0, 0, 0, 0x00, 0, 0x43800000, 0, 0, 0]
  | 22 => [0, 1, 23, 0x11, 0xC1000000, 0x41800000, 0xBF800000, 0, 0x3F800000]
  | 23 => [0, 0, 0, 0x00, 0xBF800000, 0x43000000, 0, 0, 0]
  | 24 => [1, 1, 0, 0x11, 0, 0x3FB8AA3B, 0, 0, 0x7F800000]
  | 25 => [0, 1, 26, 0x21, 0xC1A00000, 0x40CCCCCD, 0, 0x3F800000, 0]
  | 26 => [0, 0, 0, 0x10, 0, 0x414CCCCD, 0, 0, 0x3F800000]
  | 27 => [0, 2, 28, 0x21, 0xC1000000, 0x41800000, 0, 0x3F800000, 0]
  | 28 => [0, 0, 0, 0x11, 0xC1000000, 0x41800000, 0, 0, 0x3F800000]
  | 29 => [0, 2, 30, 0x21, 0xC1A00000, 0x40CCCCCD, 0, 0x3F800000, 0]
  | 30 => [0, 0, 0, 0x11, 0xC1A00000, 0x40CCCCCD, 0, 0, 0x3F800000]
  | _ => [2, 0, 0, 0x11, 0, 0x3F317218, 0xFF800000, 0, 0x7F800000]
/-- The coefficients of segment k of the quadratics of slots 21 and 23, exact in FP32: (256k − k²), (256 − 2k) and −1, each
divided by 2^`sh`. Log entry 92, DESIGN CHOICE. -/
def quadSeg (sh : Nat) (k : Nat) : List Byte :=
  let w (n : Int) : List Byte := leBytes 4 (FVal.fin (decide (n < 0)) n.natAbs (-(sh : Int))).bits32
  w (256 * k - k * k) ++ w (256 - 2 * k) ++ w (-1)
/-- R218, R224: the library table of a slot, from what the image's section holds for it: the header and the exact
quadratics are the spec's, the other coefficients the image's. Log entry 92, DESIGN CHOICE. -/
def libTable (image : List Byte) (slot : Nat) : List Byte :=
  let h (k : Nat) : Nat := (libHeader slot).getD k 0
  let w (k : Nat) : List Byte := leBytes 4 (h k)
  let segs : List Byte := match slot with
    | 21 => (upto 256).flatMap (quadSeg 16)
    | 23 => (upto 256).flatMap (quadSeg 14)
    | _ => (upto 3072).map fun k => image.getD (64 + k) 0
  [BitVec.ofNat 8 (h 0), BitVec.ofNat 8 (h 1), BitVec.ofNat 8 (h 2), BitVec.ofNat 8 (h 3)] ++ w 4 ++ w 5 ++
  leBytes 4 0 ++ leBytes 4 0 ++ w 6 ++ w 7 ++ w 8 ++ List.replicate 32 0 ++ segs

def curveTable (s : State) (c slot : Nat) : List Byte := tget [] (s.core c).curves slot
/-- R251: the slot holds a valid table; slot n is bit n of VUCRVV. -/
def curveValid (s : State) (c slot : Nat) : Bool := bitOf (s.rd (R.VUCRVV c)).toNat slot
/-- R218: a slot a context may name: a library slot, or a program slot of its range. -/
def slotReadable (s : State) (c : Nat) (x : Ctx) (slot : Nat) : Bool :=
  decide (20 ≤ slot && slot ≤ 31) || within (s.jrange x 0x13 c) slot 1
def slotOwn (s : State) (c : Nat) (x : Ctx) (slot : Nat) : Bool :=
  decide (1 ≤ slot && slot ≤ 19) && within (s.jrange x 0x13 c) slot 1

/-- R222: the table's header is well formed for a context. -/
def tableOk (s : State) (c : Nat) (x : Ctx) (tb : List Byte) : Bool :=
  let z (o n : Nat) : Bool := ((tb.drop o).take n).all (· == 0)
  let dp := tabByte tb 2
  decide (tabByte tb 0 ≤ 2) && decide (tabByte tb 1 ≤ 2) && decide (tabByte tb 3 % 16 ≤ 3) &&
  decide (tabByte tb 3 / 16 ≤ 3) && z 0x0C 4 && z 0x20 32 &&
  (dp == 0 || (decide (20 ≤ dp) && decide (dp ≤ 31)) || slotOwn s c x dp)

/-- R225, R226: what CGRAD multiplies by: none for the ReLU case, the value itself, or a table. -/
inductive Deriv where
  | relu
  | self
  | table (slot : Nat)
  | undefined
deriving DecidableEq, Repr

def derivOf (s : State) (c slot savk : Nat) : Deriv :=
  if slot = 0 then (if savk = 1 || savk = 2 then .relu else .undefined)
  else
    let tb := curveTable s c slot
    let dk := tabByte tb 1
    let dp := tabByte tb 2
    if dk = 0 || savk != dk then .undefined
    else if dp != 0 then .table dp
    else if dk = 1 then .self else .undefined

end Sys2Proof.Machine
end

