-- ==== Sys2Proof/Machine/Issue.lean ====
section
/-! DEFINITION. Sys2Proof/Machine/Issue.lean: the issue of a command instruction: the conditions of R359, the checks of
R363 and R364 that every class shares, and the record of an instruction in flight. -/

namespace Sys2Proof.Machine

/-! ## Which context may issue -/

/-- R49, R53: the context that owns the open window. -/
def State.owner (s : State) : Option Ctx :=
  match s.round.win with
  | none => none
  | some 0 => some .d
  | some _ => some .t

/-- R62, R73, R284, R359: the context may issue on the core. -/
def mayIssue (s : State) (c : Nat) (x : Ctx) : Bool :=
  s.owner == some x && (s.core c).switch.isNone && s.loaded x && !(s.cc c x).issueHalt &&
  !(x == .d && s.fbit R.RNDSTAT_DHELD) && !s.stopped && !s.fencedSv c

/-- R193, R246: the unit's own enable; units 3 to 5 have none. -/
def unitOn (s : State) (c q : Nat) : Bool :=
  if q ≤ 1 then s.fbit (R.WVCTL_ENABLE c q)
  else if q = 2 then s.fbit (R.VUCTL_ENABLE c)
  else true

def inflightAt (s : State) (c q : Nat) : Option InFlight := ((s.core c).infl.find? (·.1 == q)).map (·.2)
def busy (s : State) (c q : Nat) : Bool := (inflightAt s c q).isSome
/-- An instruction of the context is in flight on the core. -/
def ctxBusy (s : State) (c : Nat) (x : Ctx) : Bool := (s.core c).infl.any (·.2.ctx == x)

/-! ## Fields of the instruction word (R302) -/

def wf (w : W128) (lo n : Nat) : Nat := bitsOf w.toNat lo n
def wb (w : W128) (lo : Nat) : Bool := bitOf w.toNat lo
def opOf (w : W128) : Nat := wf w 119 6
def cmplOf (w : W128) : Bool := wb w 118
def wenOf (w : W128) : Bool := wb w 117
def senOf (w : W128) : Bool := wb w 116
def wctrOf (w : W128) : Nat := wf w 102 14
def wthrOf (w : W128) : Nat := wf w 86 16
def sctrOf (w : W128) : Nat := wf w 72 14
def samtOf (w : W128) : Int := signedOf (wf w 68 4) 4
def ldxOf (w : W128) : Nat := wf w 44 8

/-- R303: the operation code of the class is reserved. -/
def opReserved (w : W128) : Bool :=
  match classOf w with
  | 0 | 1 => opOf w != 0
  | 2 => !([0,1,2,3,4,5,6,7,8,9,10,11,12,13,14,15,16,17,18,20,24,25,26,27,28,29,32,40,41,42,43].contains (opOf w))
  | 3 => decide (2 ≤ opOf w)
  | 4 => decide (3 ≤ opOf w)
  | 5 => decide (4 ≤ opOf w)
  | 6 => decide (3 ≤ opOf w)
  | _ => true

/-- Curve slots an instruction in flight names (R223). -/
def slotsNamed (w : W128) : List Nat :=
  if classOf w = 1 then [wf w 31 5]
  else if classOf w = 2 && (opOf w == 16 || opOf w == 17 || opOf w == 40) then [wf w 4 5]
  else []
def isReseed (w : W128) : Bool := classOf w == 2 && (opOf w == 41 || opOf w == 43)
def isCrvld (w : W128) : Bool := classOf w == 2 && opOf w == 40

/-- R349, R223, R239: what holds an instruction at the head of its queue beside its wait. -/
def held (s : State) (c : Nat) (x : Ctx) (w : W128) : Bool :=
  let arith := busy s c 0 || busy s c 1 || busy s c 2
  (classOf w == 3 && arith) ||
  (decide (classOf w ≤ 2) && busy s c 3) ||
  (isCrvld w && [0, 1, 2].any fun q =>
    match inflightAt s c q with
    | none => false
    | some i => (slotsNamed i.word).contains (wf w 4 5)) ||
  (classOf w == 1 &&
    match inflightAt s c 2 with
    | none => false
    | some i => (isCrvld i.word && (slotsNamed i.word).contains (wf w 31 5)) || (isReseed i.word && i.ctx == x)) ||
  (isReseed w && [0, 1].any fun q =>
    match inflightAt s c q with
    | none => false
    | some i => classOf i.word == 1 && i.ctx == x)

/-! ## Checks at issue (R363, R364) -/

/-- An instruction at issue: where, whose, its word, its latched descriptors. `used` lists the stream slots it uses, with
whether the operand descriptor index lies in the table. -/
structure Iss where
  c : Nat
  q : Nat
  x : Ctx
  w : W128
  bad : Bool
  ldOk : Bool
  l : LoopD
  used : List (Nat × Bool × OpD)
deriving DecidableEq, Repr

/-- R304: the class has a loop descriptor. -/
def streamClass (w : W128) : Bool := decide (classOf w ≤ 4)

def mkIss (s : State) (c q : Nat) (x : Ctx) (e : QEntry) (slots : List Nat) : Iss :=
  let j := ldxOf e.word
  let ok := decide (j < (dtcfg s c x).2.2)
  let l := readLoop s c x j
  { c := c, q := q, x := x, w := e.word, bad := e.bad, ldOk := ok, l := l
    used := if ok then slots.map fun k =>
        let o := (l.slots.getD k ⟨0, [], false⟩).odx
        (k, decide (o < (dtcfg s c x).2.1), readOpd s c x o)
      else [] }

def emptySlot : Slot := ⟨0, [0, 0, 0, 0, 0, 0], false⟩
def Iss.slot (i : Iss) (k : Nat) : Slot := i.l.slots.getD k emptySlot
/-- The descriptor of slot k, when the instruction uses it and its index lies in the table. -/
def Iss.od (i : Iss) (k : Nat) : Option OpD :=
  match i.used.find? (·.1 == k) with
  | some (_, true, o) => some o
  | _ => none
/-- The stream of slot k, when its format is not reserved. -/
def Iss.strm (i : Iss) (k : Nat) : Option Strm :=
  match i.od k with
  | none => none
  | some o =>
    match Fmt.ofCode o.fmt with
    | none => none
    | some f => some ⟨i.slot k, o, f⟩

/-- The least code of the failing checks (R363). -/
def firstFail : List (Nat × Bool) → Option Nat
  | [] => none
  | (n, b) :: r =>
    match firstFail r with
    | none => if b then some n else none
    | some m => if b && n < m then some n else some m

/-- The checks of codes 0x20 to 0x31 that every class shares. `resv` is the mask of reserved word bits.
Log entry 100, DEDUCED. -/
def commonChecks (s : State) (i : Iss) (resv : Nat) : List (Nat × Bool) :=
  let w := i.w
  let st := streamClass w
  let ods := i.used.filterMap fun u => if u.2.1 then some u.2.2 else none
  [ (0x20, opReserved w),
    (0x21, senOf w && samtOf w == 0),
    (0x21, st && i.ldOk && (i.l.nlev == 0 || i.l.nlev == 7 || decide (i.l.klen > 1048576))),
    (0x21, ods.any fun o => (Fmt.ofCode o.fmt).isNone || o.tpitch == 0 || o.space == 3),
    (0x22, w.toNat &&& resv != 0),
    (0x22, st && i.ldOk && i.l.resv),
    (0x22, st && i.ldOk && i.l.slots.any Slot.resv),
    (0x22, ods.any OpD.resv),
    (0x23, i.bad),
    (0x30, st && !i.ldOk),
    (0x30, i.used.any fun u => !u.2.1),
    (0x31, senOf w && !ownsCtr s i.x (sctrOf w)),
    (0x31, wenOf w && !ownsCtr s i.x (wctrOf w)) ]

/-- R360: the instruction performs no element operation. -/
def Iss.empty (i : Iss) : Bool := i.l.zero || (classOf i.w == 0 && i.l.klen == 0)

/-! ## Starting -/

/-- Byte ranges of the latched descriptors (R314, R316). -/
def Iss.latched (s : State) (i : Iss) : List (Nat × Nat) :=
  if streamClass i.w then
    (loopOff s i.c i.x (ldxOf i.w), 128) ::
      i.used.map fun u => (opdOff s i.c i.x (i.slot u.1).odx, 32)
  else []

/-- The instruction enters its unit: its entry leaves the queue, its credit returns (R276), it is in flight.
Log entry 25, DESIGN CHOICE. -/
def launch (s : State) (i : Iss) (effs : List (List Eff)) (fl : Fl) : State :=
  let seq := match s.queue i.c i.x i.q with | [] => 0 | e :: _ => e.seq
  let s := dropHead s i.c i.x i.q
  let k := s.core i.c
  s.setCore i.c { k with
    nextIss := k.nextIss + 1
    infl := tins k.infl i.q { word := i.w, seq := seq, ctx := i.x, t0 := s.clk.tenths, effs := effs, flags := fl,
                              latched := i.latched s, iss := k.nextIss } }

/-- R263, R317: the check of the n data-memory words of a latched descriptor at partition offset `off`; the flag tells an
uncorrectable error found before. -/
def descCheck (c : Nat) (x : Ctx) (r : Bool × State) (off n : Nat) : Bool × State :=
  let lo := scalarIndex r.2 c x ((dmBase + off) / 4)
  let p := r.2.probeIn 0x14 c [1, 2] lo fun a => decide (lo ≤ a) && decide (a < lo + n)
  match p.1 with
  | none => r
  | some (1, a) => (r.1, p.2.correctedWord 0x14 c c (ctxParty x) 4 a)
  | some _ => (true, p.2)

/-- R275, R786: the first of the four words, in its queue's storage, of an entry: each context's entries follow one another
in a ring of its credits, context D's before context T's. Log entry 18, DEDUCED. -/
def entryIndex (s : State) (c q : Nat) (x : Ctx) (seq : Nat) : Nat :=
  4 * (seq % creditsOf s c x q + match x with | .d => 0 | .t => creditsOf s c .d q)
/-- R275, R263, R317: the checks of the entry's own words and of the latched descriptor words: the loop descriptor's and
those of every operand descriptor it names in `slots`. -/
def entryCheck (s : State) (c q : Nat) (x : Ctx) (e : QEntry) (slots : List Nat) : Bool × State :=
  let i := entryIndex s c q x e.seq
  let pr := s.probeIn 0x15 (c * 8 + q) [1, 2] i fun a => decide (i ≤ a) && decide (a < i + 4)
  let r := match pr.1 with
    | none => (false, s)
    | some (1, a) => (false, pr.2.correctedWord 0x15 (c * 8 + q) c (ctxParty x) 4 a)
    | some _ => (true, pr.2)
  if streamClass e.word && decide (ldxOf e.word < (dtcfg s c x).2.2) then
    let l := readLoop s c x (ldxOf e.word)
    ((slots.map fun k => (l.slots.getD k ⟨0, [], false⟩).odx).filter fun o => decide (o < (dtcfg s c x).2.1)).foldl
      (fun r o => descCheck c x r (opdOff s c x o) 8) (descCheck c x r (loopOff s c x (ldxOf e.word)) 32)
  else r

/-- R359, R363: the entry at the head of the issuing context's queue q issues, when it is one of the row's (`row`) or its
operation is reserved: `slots` names its stream slots, `resv` its reserved bits, `hold` any further hold, `checks` its own
checks, `start` what it does. Log entry 25, DESIGN CHOICE. -/
def issue (s : State) (c q : Nat) (row : W128 → Bool) (slots : W128 → List Nat) (resv : W128 → Nat)
    (hold : State → Ctx → W128 → Bool) (checks : State → Iss → List (Nat × Bool)) (start : State → Iss → State) : State :=
  match s.owner with
  | none => s
  | some x =>
    match s.queue c x q with
    | [] => s
    | e :: _ =>
      if !mayIssue s c x || !(row e.word || opReserved e.word) then s
      else if wenOf e.word && !ownsCtr s x (wctrOf e.word) then
        let f := s.check 0x08 c [0x31] 0 (fun _ => false) (some 0x31)
        halt f.2.2 c x 0x31 (1 + q) 0 4 e.word f.2.1
      else if !unitOn s c q || busy s c q then s
      else if wenOf e.word && !(s.ctr (wctrOf e.word)).met (wthrOf e.word) then s
      else if held s c x e.word || hold s x e.word then s
      else
        let r := entryCheck s c q x e (slots e.word)
        let i := mkIss r.2 c q x { e with bad := e.bad || r.1 } (slots e.word)
        let cs := commonChecks r.2 i (resv e.word) ++ checks r.2 i
        let f := r.2.check 0x08 c (cs.map (·.1)) 0 (fun _ => false) (firstFail cs)
        match f.1 with
        | some code => halt f.2.2 c x code (1 + q) 0 4 e.word (f.2.1 || (r.1 && code == 0x23))
        | none => start f.2.2 i

/-- A head of the class and operation. -/
def isOp (cls op : Nat) (w : W128) : Bool := classOf w == cls && opOf w == op
def noHold (_ : State) (_ : Ctx) (_ : W128) : Bool := false

/-- R327, R146, R209: a stream of an arithmetic unit lies in local store, and a linear tile there is read by rows. -/
def arithStreamBad (o : OpD) : Bool := o.space != 0 || (o.linear && o.orient == 1)

end Sys2Proof.Machine
end

