-- ==== Sys2Proof/Machine/Streams.lean ====
section
/-! DEFINITION. Sys2Proof/Machine/Streams.lean: what the units share when they read streams from local store and stage
their writes: the words read, their storage checks (R396, R398, R806), and the bytes to be written when the
instruction retires (R311). -/

namespace Sys2Proof.Machine

/-! ## Reading -/

/-- A rectangle of elements of one tile that an element operation reads: rows i0 to i0 + ni − 1, columns j0 to
j0 + nj − 1; `off` is added to the tile's address (R152), `clip` applies the stream's extent (R343). -/
structure Rect where
  st : Strm
  t : Int
  off : Int
  i0 : Nat
  ni : Nat
  j0 : Nat
  nj : Nat
  clip : Bool
deriving DecidableEq, Repr

/-- Pairs of a range of rows and a range of columns, row by row. -/
def pairs (i0 ni j0 nj : Nat) : List (Nat × Nat) :=
  (upto ni).flatMap fun i => (upto nj).map fun j => (i0 + i, j0 + j)

/-- The elements of a rectangle inside the extent. -/
def Rect.elems (r : Rect) : List (Nat × Nat) :=
  (pairs r.i0 r.ni r.j0 r.nj).filter fun e => !(r.clip && r.st.od.outside r.t e.1 e.2)

/-- The device address of a stream's tile. -/
def Strm.tileDev (st : Strm) (c : Nat) (t off : Int) : Nat := spaceAddr c st.od.space (st.od.tileAt t + off).toNat
/-- The device address of the scale byte of a block (R326). -/
def Strm.scaleDev (st : Strm) (c : Nat) (t : Int) (blk : Nat) : Nat :=
  spaceAddr c st.od.space ((st.od.sbase : Int) + 32 * t + blk).toNat

/-- The device words that a rectangle reads, scale bytes included. -/
def Rect.words (c : Nat) (r : Rect) : List Nat :=
  let a := r.st.tileDev c r.t r.off
  r.elems.flatMap fun e =>
    ((elemAddrs r.st.f r.st.od.linear a e.1 e.2).map (· / 4)) ++
    (if r.st.f.isMx then [r.st.scaleDev c r.t (r.st.od.block e.1 e.2) / 4] else [])

/-- R807: an injected error at a word that is poisoned is the more severe of the two, an uncorrectable word. -/
def worse (s : State) (p : Nat × Nat) : Nat × Nat := if s.poison.contains (p.2 / 4) then (2, p.2) else p
/-- What an armed point of a local store's detector does when it fires: cause and address. Log entry 96, DEDUCED. -/
def lsFire (c m : Nat) (s : State) (p : Nat × Nat) : State :=
  let own := ownerOf s p.2
  if p.1 = 1 then
    (queueRewrite (s.bump (R.MEMCOR (dieOf c))) (dieOf c) 0x17 c p.2).reportFrom .corrected 0x17 c 1 (optParty own) 1 p.2 m true
  else
    (s.bump (R.MEMUNC (dieOf c))).reportFrom .contained 0x17 c 2
      (match own with | some x => ctxParty x | none => .host) 1 p.2 m true

/-- R396, R398, R806: the checks of the local-store words read. `ws` lists them. The first state is the memory as
the reader finds it, an injected word poisoned; the second is the machine after the reports. -/
def readChecked (s : State) (c : Nat) (ws : List Nat) (m : Nat) : State × State :=
  let pr := if ws.isEmpty then ([], s) else s.probeAll 0x17 c [1, 2] (4 * ws.headD 0) (fun a => ws.contains (a / 4)) 16
  let errs := pr.1.map (worse s)
  let s' := errs.foldl (lsFire c m) pr.2
  let dead := (errs.filter (·.1 != 1)).map (·.2 / 4)
  let after := reportPoison s' ((s'.poison.filter ws.contains).filter fun w => !dead.contains w) m
  ({ s' with poison := dead.foldl nins s'.poison }, after)

/-! ## Staging writes -/

/-- Bytes to be written: memory as it will be, the addresses written so far, the words that become poisoned, and the bits
written of bytes that elements narrower than a byte share. -/
structure Staged where
  mem : List Host.Cell
  addrs : List Nat := []
  bad : List Nat := []
  bits : List Host.Cell := []
deriving DecidableEq, Repr

/-- A byte. -/
def Staged.byte (g : Staged) (a : Nat) (b : Byte) : Staged :=
  { g with mem := tput 0 g.mem a b, addrs := nins g.addrs a }
def Staged.bytes (g : Staged) (a : Nat) : List Byte → Staged
  | [] => g
  | b :: r => (g.byte a b).bytes (a + 1) r
/-- Element (i, j) of the tile at device address `a`. -/
def Staged.elem (g : Staged) (f : Fmt) (linear : Bool) (a i j v : Nat) : Staged :=
  let sp := elemSpan f j
  let part := if f.bits % 8 = 0 then g.bits
    else ((elemAddrs f linear a i j).zip (leBytes sp.2.1 (setBits 0 sp.2.2 f.bits (2 ^ f.bits - 1)))).foldl
      (fun m e => tput 0 m e.1 (tget 0 m e.1 ||| e.2)) g.bits
  { g with mem := putElem f linear a g.mem i j v, addrs := (elemAddrs f linear a i j).foldl nins g.addrs, bits := part }
/-- The words at these addresses become poisoned. -/
def Staged.poison (g : Staged) (as : List Nat) : Staged := { g with bad := as.foldl (fun l a => nins l (a / 4)) g.bad }
/-- The staged effect, and the staging of the next chunk over it. -/
def Staged.eff (g : Staged) : List Eff :=
  if g.addrs.isEmpty then [] else [.mem (g.addrs.map fun a => (a, tget 0 g.mem a)) g.bad (g.bits.filter fun e => e.2 != 0xFF)]
def Staged.next (g : Staged) : Staged := { mem := g.mem }

/-- A word of FP32 storage as a value. -/
def wordVal (w : W32) : FVal := of32 w.toNat
def valWord (v : FVal) : W32 := BitVec.ofNat 32 v.bits32

/-! ## Checks of streams -/

/-- A used stream that breaks a rule. -/
def Iss.anyOd (i : Iss) (f : OpD → Bool) : Bool := i.used.any fun u => u.2.1 && f u.2.2
/-- The lowest and highest position of a slot over the active levels. -/
def Iss.range (i : Iss) (k : Nat) : Int × Int := extremes (i.slot k).strides i.l.active
/-- The same over the non-reduction levels (R344). -/
def Iss.outRange (i : Iss) (k : Nat) : Int × Int :=
  extremes ((i.slot k).strides.drop i.l.rlev) (i.l.active.drop i.l.rlev)

/-- R329, R375: placement of a stream of whole tiles; `sub` bounds the sub-array offsets, `mul` their number less 1. -/
def Iss.tilesBad (s : State) (i : Iss) (k : Nat) (mul : Nat) : Bool :=
  match i.strm k with
  | none => false
  | some st =>
    let r := i.range k
    let d : Int := mul * st.od.suboff * 64
    !placed st.od st.f ||
    (!i.empty &&
      (!spanGranted s i.c i.x st.od (spanOf st.od r.1 r.2 (st.f.tile st.od.linear) (min 0 d, max 0 d)) ||
       (st.f.isMx && !spanGranted s i.c i.x st.od (scaleSpan st.od r.1 r.2))))

end Sys2Proof.Machine
end

