-- ==== Sys2Proof/Machine/Weave.lean ====
section
/-! DEFINITION. Sys2Proof/Machine/Weave.lean: the Weave engine: rank-k updates and their order of summation (R142 to
R159), the mat file (R160 to R170), Unload (R171 to R179), the supply-current states (R184 to R192), the debug window
(R197 to R199), and the strobes of WVCTL and WVCFG. -/

namespace Sys2Proof.Machine

/-! ## Supply current (R184 to R192) -/

/-- The latched WVCFG of an engine (R201) as N and T in quarter microseconds; bit 31 of the entry notes that ENABLE was
set from STOPPED and no instruction has issued since (R188). -/
def pwrWord (s : State) (c e : Nat) : Nat := (tget (0 : W32) (s.core c).pwr e).toNat
def pwrN (s : State) (c e : Nat) : Nat := bitsOf (pwrWord s c e) 24 4 + 1
def pwrT (s : State) (c e : Nat) : Nat := bitsOf (pwrWord s c e) 16 8
/-- Log entry 90, DEDUCED. -/
def pwrRestart (s : State) (c e : Nat) : Bool := bitOf (pwrWord s c e) 31
def setPwr (s : State) (c e w : Nat) : State :=
  let k := s.core c
  s.setCore c { k with pwr := tput 0 k.pwr e (BitVec.ofNat 32 w) }
/-- R201: WVCFG takes effect. Log entry 29, DESIGN CHOICE. -/
def latchPwr (s : State) (c e : Nat) (restart : Bool) : State :=
  setPwr s c e ((s.rd (R.WVCFG c e)).toNat % 2 ^ 31 + if restart then 2 ^ 31 else 0)
def setPstate (s : State) (c e st step : Nat) : State :=
  (s.fset (R.WVSTAT_PSTATE c e) st).fset (R.WVSTAT_RSTEP c e) step

/-- R188, R190: entry into RAMPUP at a step. -/
def enterRampup (s : State) (c e step : Nat) : State :=
  let s := (latchPwr s c e false).bump (R.WVRUPCNT c e)
  if pwrT s c e = 0 then setPstate s c e 0 0 else setPstate s c e 4 (step - 1)
/-- R184: a dummy update adds a whole-mode rank-4 step of zero operands to the engine's null mat (R166). A word that is not
listed is +0 and stays so. -/
def dummyUpdate (s : State) (c e : Nat) : State :=
  let k := s.core c
  let add (t : Tab W32) (p : Nat × W32) : Tab W32 :=
    if p.1 / 1024 = e then tput 0 t p.1 (BitVec.ofNat 32 (add32 (of32 p.2.toNat) (.fin false 0 0)).1.bits32) else t
  s.setCore c { k with nullMats := k.nullMats.foldl add k.nullMats }
/-- R187, R190: entry into RAMPDOWN. -/
def enterRampdown (s : State) (c e : Nat) : State :=
  let s := latchPwr s c e (pwrRestart s c e)
  if pwrT s c e = 0 then setPstate s c e 3 0 else setPstate s c e 2 0
/-- R186: the stream has no issuable instruction. -/
def enterDummy (s : State) (c e : Nat) : State :=
  if s.fget (R.WVCFG_DUMTHR c e) = 0 then enterRampdown s c e
  else dummyUpdate (setPstate ((latchPwr s c e (pwrRestart s c e)).bump (R.WVDUMCNT c e)) c e 1 0) c e

/-- R186, R188, R189: what the issue of an instruction with element operations does to the power state.
Log entry 29, DESIGN CHOICE; 90, DEDUCED. -/
def pwrIssue (s : State) (c e : Nat) : State :=
  let p := s.fget (R.WVSTAT_PSTATE c e)
  if pwrRestart s c e || p = 3 then enterRampup s c e 1
  else if p = 2 then enterRampup s c e (max (pwrN s c e - (s.fget (R.WVSTAT_RSTEP c e) + 1)) 1)
  else if p = 1 then setPstate s c e 0 0
  else s

/-- R359: the head of the issuing context's queue could issue in this cycle. -/
def issuable (s : State) (c q : Nat) : Bool :=
  match s.owner with
  | none => false
  | some x =>
    match s.queue c x q with
    | [] => false
    | e :: _ =>
      mayIssue s c x && unitOn s c q && (!wenOf e.word || (s.ctr (wctrOf e.word)).met (wthrOf e.word)) &&
      !held s c x e.word

/-- R186: an idle engine in FULL with no issuable instruction enters DUMMY. Log entry 91, DEDUCED. -/
def pwrSettle (s : State) (c e : Nat) : State :=
  if s.fget (R.WVSTAT_PSTATE c e) = 0 && !busy s c e && !issuable s c e then enterDummy s c e else s

/-- R187: DUMTHR cycles have passed in DUMMY. Log entry 29, DESIGN CHOICE. -/
def rampdownStart (s : State) (c e : Nat) : State :=
  if s.fget (R.WVSTAT_PSTATE c e) = 1 then enterRampdown s c e else s

/-- R187 to R189: a ramp step of T / N has passed. Log entry 29, DESIGN CHOICE. -/
def rampStep (s : State) (c e : Nat) : State :=
  let p := s.fget (R.WVSTAT_PSTATE c e)
  let r := s.fget (R.WVSTAT_RSTEP c e)
  if p = 2 then (if r + 1 < pwrN s c e then setPstate s c e 2 (r + 1) else setPstate s c e 3 0)
  else if p = 4 then
    (if r + 1 < pwrN s c e then setPstate s c e 4 (r + 1) else pwrSettle (setPstate s c e 0 0) c e)
  else s

/-! ## Mats -/

def matRange (s : State) (c e : Nat) (x : Ctx) : Nat × Nat := s.jrange x 0x11 (c * 2 + e)
def matWord (s : State) (c e mat w : Nat) : W32 := tget 0 (s.core c).mats (e * 65536 + mat * 1024 + w)
/-- R161: the context that owns a mat. -/
def matOwner (s : State) (c e mat : Nat) : Option Ctx :=
  if within (matRange s c e .d) mat 1 then some .d
  else if within (matRange s c e .t) mat 1 then some .t else none

/-- What an armed point of an engine's mat detector does when it fires. Log entry 96, DEDUCED. -/
def matFire (c e acc : Nat) (s : State) (p : Nat × Nat) : State :=
  let own := matOwner s c e (p.2 / 1024)
  if p.1 = 1 then s.correctedWord 0x10 (c * 2 + e) c (optParty own) acc p.2
  else
    s.reportFrom (match own with | none => .notice | some _ => .contained) 0x10 (c * 2 + e) p.1 (optParty own) acc p.2
      (s.endpoint (0x80 + c)) true
/-- R167: the errors that wait in the mats of `mats`, in the order in which an instruction reads them: cause and word index.
They are reported where the words are read (`Eff.matErr`). -/
def matErrs (s : State) (c e : Nat) (mats : List Nat) : List (Nat × Nat) :=
  if mats.isEmpty then []
  else (s.probeAll 0x10 (c * 2 + e) [1, 2] (mats.headD 0 * 1024) (fun a => mats.contains (a / 1024)) 16).1
/-- The words among them that read as NaN. -/
def deadWords (errs : List (Nat × Nat)) : List Nat := (errs.filter (·.1 != 1)).map (·.2)
/-- The reads of the words that `p` selects. -/
def matReads (e acc : Nat) (errs : List (Nat × Nat)) (p : Nat → Bool) : List Eff :=
  (errs.filter fun q => p q.2).map fun q => Eff.matErr e q.1 q.2 acc
/-- R167: such a word is read: the point that waits there fires. -/
def matErr (c e acc : Nat) (s : State) (p : Nat × Nat) : State :=
  let pr := s.probeIn 0x10 (c * 2 + e) [p.1] p.2 (· == p.2)
  match pr.1 with
  | none => s
  | some q => matFire c e acc pr.2 q

/-- A mat word as read, NaN where the check found it damaged. -/
def matVal (s : State) (c e : Nat) (dead : List Nat) (mat w : Nat) : FVal :=
  if dead.contains (mat * 1024 + w) then .nan else wordVal (matWord s c e mat w)

/-! ## The rank-k update and its summation (R143, R144, R154 to R159) -/

/-- R118: rate classes, slower last: FP4, FP8, 16-bit, FP32. -/
def rateClass : Fmt → Nat
  | .mx4e2m1 => 0
  | .bf16 | .fp16 => 2
  | .fp32 => 3
  | _ => 1
/-- R144: the rank of a step, by class and mode. -/
def rankOf (cls mode : Nat) : Nat :=
  match cls with
  | 0 => 8 / 2 ^ mode
  | 1 => 4 / 2 ^ mode
  | 2 => if mode = 0 then 2 else 1
  | _ => 1
/-- R156: Kb; none where reserved. -/
def kbOf : Nat → Option Nat
  | 0 => some 64 | 1 => some 16 | 2 => some 32 | 3 => some 128 | 4 => some 256
  | _ => none

/-- A list cut into pieces of n. -/
def chunksOf (n : Nat) : Nat → List α → List (List α)
  | 0, _ => []
  | _, [] => []
  | k + 1, l => l.take n :: chunksOf n k (l.drop n)

/-- R154: one level of the pairwise tree; a value without a partner passes through. -/
def pairAdd : List FVal → List FVal × Fl
  | [] => ([], 0)
  | [a] => ([a], 0)
  | a :: b :: r =>
    let x := add32 a b
    let q := pairAdd r
    (x.1 :: q.1, x.2 ||| q.2)
/-- R154: the tree of one step. -/
def treeAdd : Nat → List FVal → FVal × Fl
  | _, [] => (.fin false 0 0, 0)
  | _, [a] => (a, 0)
  | 0, a :: _ => (a, 0)
  | k + 1, l =>
    let p := pairAdd l
    let q := treeAdd k p.1
    (q.1, p.2 ||| q.2)

/-- R155: the steps of a block into the block register. -/
def blockAdd (reg : Option FVal) : List (List FVal) → FVal × Fl
  | [] => (match reg with | none => (.fin false 0 0, 0) | some r => (r, 0))
  | st :: rest =>
    let t := treeAdd 3 st
    let r := match reg with | none => round32 t.1 | some r => add32 r t.1
    let q := blockAdd (some r.1) rest
    (q.1, t.2 ||| r.2 ||| q.2)

/-- The cascade of R157: the slots, and the sum last stored in each. -/
structure Cascade where
  slots : List (Option FVal)
  last : Tab FVal
  fl : Fl
deriving DecidableEq, Repr

/-- R157: a block that is not last enters from level h. Log entry 89, DEDUCED. -/
def Cascade.push : Nat → Nat → Cascade → FVal → Cascade
  | 0, _, k, _ => k
  | n + 1, h, k, p =>
    match k.slots.getD h none with
    | none => { k with slots := k.slots.set h (some p), last := tins k.last h p }
    | some o =>
      let x := add32 o p
      Cascade.push n (h + 1) { k with slots := k.slots.set h none, fl := k.fl ||| x.2 } x.1
/-- R157: the flush. -/
def flushAdd : List (Option FVal) → FVal → FVal × Fl
  | [], p => (p, 0)
  | none :: r, p => flushAdd r p
  | some o :: r, p =>
    let x := add32 o p
    let q := flushAdd r x.1
    (q.1, x.2 ||| q.2)
/-- R167: the slots as the flush reads them: a full one whose level is in `dead` reads as NaN. -/
def damagedSlots (dead : List Nat) (slots : List (Option FVal)) : List (Option FVal) :=
  ((upto slots.length).zip slots).map fun e => if e.2.isSome && dead.contains e.1 then some .nan else e.2
/-- Log entry 6, DESIGN CHOICE. -/
def cascadeAll (dead : List Nat) (k : Cascade) : List (FVal × Fl) → FVal × Cascade
  | [] => (.fin false 0 0, k)
  | [b] =>
    let q := flushAdd (damagedSlots dead k.slots) b.1
    (q.1, { k with fl := k.fl ||| b.2 ||| q.2 ||| (if dead.isEmpty then 0 else Fl.nanin) })
  | b :: r => cascadeAll dead (Cascade.push 13 0 { k with fl := k.fl ||| b.2 } b.1) r

/-- The sum of one mat element over its products in reduction order (R154 to R157); `dead` are the levels whose carry word
is damaged when the flush reads it. -/
def elementSum (rank kb : Nat) (dead : List Nat) (prods : List FVal) : FVal × Cascade :=
  let blocks := chunksOf kb prods.length prods
  cascadeAll dead { slots := List.replicate 13 none, last := [], fl := 0 }
    (blocks.map fun b => blockAdd none (chunksOf rank b.length b))

/-- R170: the flags a Weave sets. -/
def weaveFl : Fl := Fl.nanin ||| Fl.infin ||| Fl.nangen ||| Fl.ovfnf

/-! ## WEAVE -/

def weaveMode (w : W128) : Nat := wf w 42 2
def weaveSlots (_ : W128) : List Nat := [0, 1]
def weaveResv (_ : W128) : Nat := 2 ^ 22 - 1
/-- R156: n. -/
def blocksOf (klen kb : Nat) : Nat := cdiv klen kb
/-- ceil(log₂ n). -/
def clog2 (n : Nat) : Nat := if n ≤ 1 then 0 else Nat.log2 (n - 1) + 1
/-- A range of mats lies outside the context's. -/
def matsOutside (r : Nat × Nat) (lo n : Nat) : Bool := decide (0 < n) && !within r lo n

/-- R156, R158, R164, R115, R119, R327 to R329, R323, R333. -/
def weaveChecks (s : State) (i : Iss) : List (Nat × Bool) :=
  let w := i.w
  let mat := wf w 33 6
  let cb := wf w 27 6
  let cd := wf w 23 4
  let r := matRange s i.c i.q i.x
  let m := i.l.matN
  let mode := weaveMode w
  let mul := match mode with | 1 => 3 | 2 => 15 | _ => 0
  let kb := (kbOf (wf w 39 3)).getD 64
  let fa := (i.strm 0).map Strm.f
  let fb := (i.strm 1).map Strm.f
  let rr := i.l.redN
  [ (0x21, mode == 3 || (kbOf (wf w 39 3)).isNone || decide (13 ≤ cd)),
    (0x32, matsOutside r cb cd || decide (cd < clog2 (blocksOf i.l.klen kb))),
    (0x32, matsOutside r mat (if i.empty then min m (64 - mat) else m) || (!i.empty && decide (64 < mat + m)) ||
      (decide (0 < cd) && decide (0 < m) && decide (mat < cb + cd) && decide (cb < mat + m))),
    (0x33, [0, 1].any fun k =>
      match i.strm k with
      | none => false
      | some st => st.f.isMx && st.od.baxis == st.od.orient),
    (0x33, (fa == some .int8) != (fb == some .int8) && fa.isSome && fb.isSome),
    (0x34, i.anyOd arithStreamBad),
    (0x34, i.tilesBad s 0 mul || i.tilesBad s 1 mul),
    (0x35, i.ldOk && (!i.l.rmaskOk || i.l.rlev == 0)),
    (0x35, i.ldOk && !i.empty && !(decide (32 * (rr - 1) < i.l.klen) && decide (i.l.klen ≤ 32 * rr))) ]

/-- R151: side of a sub-array, and sub-arrays per row. -/
def subSide (mode : Nat) : Nat := 32 / 2 ^ mode
def subOf (mode i j : Nat) : Nat := i / subSide mode * 2 ^ mode + j / subSide mode

/-- R149, R333: the rectangle that one operand reads at an iteration for a sub-array: `n` reduction indices, `side`
vector elements. -/
def weaveRect (st : Strm) (t : Int) (off : Int) (n side : Nat) : Rect :=
  if st.od.orient = 0 then ⟨st, t, off, 0, n, 0, side, false⟩ else ⟨st, t, off, 0, side, 0, n, false⟩
/-- R149: the operand's element for reduction index x of the tile and vector element v. -/
def weaveElem (s : State) (c : Nat) (st : Strm) (t off : Int) (x v : Nat) : FVal :=
  if st.od.orient = 0 then st.value s c t off x v else st.value s c t off v x

/-- R152: the address offset of sub-array q. Log entry 88, DEDUCED. -/
def subOff (st : Strm) (mode q : Nat) : Int := if mode = 0 then 0 else (q : Int) * st.od.suboff * 64

/-- The vectors of one operand for destination mat m: by sub-array, by vector element, the values over x.
Log entry 88, DEDUCED. -/
def weaveVec (v : State) (i : Iss) (st : Strm) (k m q e : Nat) : List FVal :=
  (upto i.l.klen).map fun x =>
    weaveElem v i.c st (i.l.pos (i.slot k) (m * i.l.redN + x / 32)) (subOff st (weaveMode i.w) q) (x % 32) e

/-- The words an operand reads in the whole instruction. -/
def weaveWords (i : Iss) (st : Strm) (k : Nat) : List Nat :=
  let mode := weaveMode i.w
  (upto i.l.outN).flatMap fun m => (upto i.l.redN).flatMap fun ρ => (upto (4 ^ mode)).flatMap fun q =>
    (weaveRect st (i.l.pos (i.slot k) (m * i.l.redN + ρ)) (subOff st mode q) (min 32 (i.l.klen - 32 * ρ))
      (subSide mode)).words i.c

/-- NANIN and INFIN of the operands read (R170). -/
def inFl (l : List FVal) : Fl := l.foldl (fun f v => f ||| v.inFlags) 0

/-- R157: the levels of the carry slots that are full when the last of n blocks arrives: the bits of n − 1. -/
def flushLevels (n : Nat) : List Nat := (upto 13).filter fun h => bitOf (n - 1) h
/-- R167: the carry mats that a flush reads. -/
def carryReads (i : Iss) : List Nat :=
  (flushLevels (blocksOf i.l.klen ((kbOf (wf i.w 39 3)).getD 64))).map (· + wf i.w 27 6)
/-- R167: the mats whose words the instruction reads, in order: the carry mats that the first mat's flush takes and, under
ACC = 1, the old contents of the destination mats. -/
def weaveReads (i : Iss) : List Nat :=
  carryReads i ++ (if wb i.w 22 then (upto i.l.outN).map (· + wf i.w 33 6) else [])

/-- The effects on destination mat m: its 1,024 words, its carry mats, and the flags. `errs` lists the mat words with an
error (R167); those of carry mats are met in the first mat's flush. -/
def weaveMat (s v : State) (i : Iss) (sa sb : Strm) (errs : List (Nat × Nat)) (m : Nat) : List Eff × Fl :=
  let dead := deadWords errs
  let w := i.w
  let mode := weaveMode w
  let side := subSide mode
  let nq := 4 ^ mode
  let rank := rankOf (max (rateClass sa.f) (rateClass sb.f)) mode
  let kb := (kbOf (wf w 39 3)).getD 64
  let va := (upto nq).map fun q => (upto side).map fun e => weaveVec v i sa 0 m q e
  let vb := (upto nq).map fun q => (upto side).map fun e => weaveVec v i sb 1 m q e
  let mat := wf w 33 6 + m
  let cb := wf w 27 6
  let fin := (va ++ vb).foldl (fun f l => l.foldl (fun f u => f ||| inFl u) f) 0
  let r := (upto 1024).map fun k =>
    let q := subOf mode (k / 32) (k % 32)
    let a := (va.getD q []).getD (k / 32 % side) []
    let b := (vb.getD q []).getD (k % 32 % side) []
    let ps := (a.zip b).map fun e => weaveProduct e.1 e.2
    let hurt := if m = 0 then (upto 13).filter fun h => dead.contains ((cb + h) * 1024 + k) else []
    let es := elementSum rank kb hurt (ps.map (·.1))
    let f := ps.foldl (fun f p => f ||| p.2) es.2.fl
    let old := matVal s i.c i.q dead mat k
    let z := if wb w 22 then ((add32 old es.1).1, old.inFlags ||| (add32 old es.1).2) else (es.1, 0)
    (Eff.mat i.q (mat * 1024 + k) (valWord z.1) ::
      es.2.last.map fun e => Eff.mat i.q ((cb + e.1) * 1024 + k) (valWord e.2), f ||| z.2)
  let reads := (if m = 0 then matReads i.q 5 errs fun a => (carryReads i).contains (a / 1024) else []) ++
    (if wb w 22 then matReads i.q 5 errs fun a => a / 1024 == mat else [])
  (reads ++ r.flatMap (·.1), r.foldl (fun f e => f ||| e.2) fin)

def weaveStart (s : State) (i : Iss) : State :=
  if i.empty then launch s i [] 0
  else
    match i.strm 0, i.strm 1 with
    | some sa, some sb =>
      let p := readChecked s i.c (weaveWords i sa 0 ++ weaveWords i sb 1) (s.endpoint (0x80 + i.c))
      let rs := (upto i.l.outN).map (weaveMat s p.1 i sa sb (matErrs p.2 i.c i.q (weaveReads i)))
      pwrIssue (launch p.2 i (rs.map (·.1)) (rs.foldl (fun f e => f ||| e.2) 0 &&& weaveFl)) i.c i.q
    | _, _ => s

def execWeave (core : CoreId) (eng : EngId) (s : State) : Host.Outcome State Fault Refusal :=
  .next (issue s core eng (isOp 0 0) weaveSlots weaveResv noHold weaveChecks weaveStart)

/-! ## UNLOAD (R171 to R179) -/

def unloadSlots (w : W128) : List Nat := if wb w 30 then [3, 4] else [3]
def unloadResv (_ : W128) : Nat := 2 ^ 29 - 1
/-- R218, R222: a CURVE field that names a slot outside the range or an invalid one. -/
def curveBad (s : State) (c : Nat) (x : Ctx) (slot : Nat) : Bool :=
  slot != 0 && !(slotReadable s c x slot && curveValid s c slot)

/-- Log entry 23, DEDUCED. -/
def unloadChecks (s : State) (i : Iss) : List (Nat × Bool) :=
  [ (0x21, i.anyOd fun o => (Conv.ofCode o.conv).isNone),
    (0x32, matsOutside (matRange s i.c i.q i.x) (wf i.w 38 6) (prod i.l.active)),
    (0x34, i.anyOd arithStreamBad),
    (0x34, i.tilesBad s 3 0 || i.tilesBad s 4 0),
    (0x35, i.ldOk && i.l.rmask != 0),
    (0x36, curveBad s i.c i.x (wf i.w 31 5)) ]

/-- R172, R518: the reciprocal of the loss scale in the core's latch. -/
def lossRecip (s : State) (c : Nat) : FVal := .fin false 1 (-(signedOf (tget 0x0F#8 s.lsLatch c).toNat 8))
/-- R172: SCALE, and the flags of forming it. -/
def unloadScale (s : State) (c : Nat) (w : W128) (st : Strm) : FVal × Fl :=
  match wf w 36 2 with
  | 0 => (fNat 1, 0)
  | 1 => (of32 st.od.scale, 0)
  | 2 => (lossRecip s c, 0)
  | _ => mul32 (of32 st.od.scale) (lossRecip s c)

/-- R175: where mat element (i, j) lies in a tile. -/
def orientOf (o : OpD) (i j : Nat) : Nat × Nat := if o.orient = 0 then (i, j) else (j, i)

/-- R134: an element position that is converted draws under stochastic rounding. `conv` tells that the instruction converts
to FP32 too: an Unload (R171) and CVT (R217) do, other vector operations only to another format (R211). -/
def drawsOf (conv : Bool) (f : Fmt) (cv : Conv) : Bool := (conv || f != .fp32) && cv.mode = .stoch

/-- An element to be written: its tile coordinates, value and draw; `quiet` when its conversion sets no flag (R860). -/
structure Cell where
  i : Nat
  j : Nat
  val : FVal
  draw : Nat
  quiet : Bool := false
deriving DecidableEq, Repr
/-- The elements of a tile to be written, by mat element in column order. -/
abbrev Cells := List Cell

/-- One element without a shared scale, converted and staged at the tile's device address. -/
def putCell (conv : Bool) (st : Strm) (cv : Conv) (addr : Nat) (acc : Staged × Fl) (e : Cell) : Staged × Fl :=
  let r := if conv || st.f != .fp32 then convertTo st.f cv e.draw e.val else (e.val.bits32, (0 : Fl))
  (acc.1.elem st.f st.od.linear addr e.i e.j r.1, if e.quiet then acc.2 else acc.2 ||| r.2)
/-- R129, R176: the inside elements of block b of a tile, converted and staged with their scale byte. -/
def putBlock (c : Nat) (st : Strm) (t : Int) (cv : Conv) (ins : Cells) (acc : Staged × Fl) (b : Nat) : Staged × Fl :=
  let blk := ins.filter fun e => st.od.block e.i e.j == b
  if blk.isEmpty then acc
  else
    let r := mxConvert st.f cv.mode (blk.map Cell.draw) (blk.map Cell.val)
    let g := acc.1.byte (st.scaleDev c t b) (BitVec.ofNat 8 r.1)
    ((blk.zip r.2.1).foldl (fun g e => g.elem st.f st.od.linear (st.tileDev c t 0) e.1.i e.1.j e.2) g, acc.2 ||| r.2.2)
/-- R171 step 3, R176: conversion of the inside elements of a tile and their staging. -/
def putCells (conv : Bool) (g : Staged) (c : Nat) (st : Strm) (t : Int) (cv : Conv) (cells : Cells) : Staged × Fl :=
  let ins := cells.filter fun e => !st.od.outside t e.i e.j
  if st.f.isMx then (upto 32).foldl (putBlock c st t cv ins) (g, 0)
  else ins.foldl (putCell conv st cv (st.tileDev c t 0)) (g, 0)

/-- R171 steps 1 and 2 for a mat word: s, y, the flags, and the damaged words of the curve table met (R224). -/
def unloadVal (i : Iss) (tb : CurveView) (scale v : FVal) : FVal × FVal × Fl × List Nat :=
  let m := mul32 v scale
  let f := v.inFlags ||| (if wf i.w 36 2 = 0 then 0 else scale.inFlags) ||| m.2
  if wf i.w 31 5 = 0 then (m.1, m.1, f, [])
  else
    let y := tb.eval m.1
    (m.1, y.1, f ||| y.2, tb.met m.1)

/-- R177: the draws of one column, first destination then second, row by row. -/
def columnDraws (s : State) (i : Iss) (one two : Bool) : List Nat → Draws → List (Nat × Nat) × Draws
  | [], d => ([], d)
  | r :: rest, d =>
    let p := 256 + 32 * i.q + r
    let a := if one then draw s i.c i.x d p else (0, d)
    let b := if two then draw s i.c i.x a.2 p else (0, a.2)
    let q := columnDraws s i one two rest b.2
    ((a.1, b.1) :: q.1, q.2)

/-- What an Unload has staged so far. -/
structure UnlAcc where
  g : Staged
  d : Draws
  fl : Fl
  effs : List (List Eff)
  /-- Damaged words of the curve table that an evaluation read. -/
  hit : List Nat := []
deriving DecidableEq, Repr

/-- The 32 columns of one mat: draws after each column, and the draws of every element. -/
def matDraws (s : State) (i : Iss) (one two : Bool) : List Nat → Draws → List (List (Nat × Nat)) × List Draws × Draws
  | [], d => ([], [], d)
  | _ :: rest, d =>
    let c := columnDraws s i one two (upto 32) d
    let q := matDraws s i one two rest c.2
    (c.1 :: q.1, c.2 :: q.2.1, q.2.2)

def clearMat (i : Iss) (mat : Nat) : List Eff :=
  if wb i.w 29 then (upto 1024).map fun k => Eff.mat i.q (mat * 1024 + k) 0 else []

/-- An element of a mat on its way out: its mat coordinates, s, y, its flags, the damaged table words met, and the draws of
the two destinations. -/
structure UnlEl where
  i : Nat
  j : Nat
  s : FVal
  y : FVal
  fl : Fl
  met : List Nat
  draws : Nat × Nat
deriving DecidableEq, Repr

/-- The element lies inside a destination's extent at tile t (R174). -/
def UnlEl.inside (e : UnlEl) (o : OpD) (t : Int) : Bool := let p := orientOf o e.i e.j; !o.outside t p.1 p.2
/-- The element as the first destination (y) and as the second (s) receive it. -/
def UnlEl.first (o : OpD) (e : UnlEl) : Cell := let p := orientOf o e.i e.j; ⟨p.1, p.2, e.y, e.draws.1, false⟩
def UnlEl.second (o : OpD) (e : UnlEl) : Cell := let p := orientOf o e.i e.j; ⟨p.1, p.2, e.s, e.draws.2, false⟩
def convOf (st : Strm) : Conv := (Conv.ofCode st.od.conv).getD ⟨false, .near⟩

/-- One mat: its elements, its two tiles staged, its flags, and its effects column by column. Scaling and curve flags are
those of elements inside either destination. Log entry 87, DEDUCED. -/
def unloadMat (s : State) (i : Iss) (sd : Strm) (se : Option Strm) (scale : FVal) (tb : CurveView)
    (errs : List (Nat × Nat)) (acc : UnlAcc) (m : Nat) : UnlAcc :=
  let dead := deadWords errs
  let one := drawsOf true sd.f (convOf sd)
  let two := match se with | none => false | some st => drawsOf true st.f (convOf st)
  let ds := matDraws s i one two (upto 32) acc.d
  let mat := wf i.w 38 6 + m
  let all : List UnlEl := (pairs 0 32 0 32).map fun e =>
    let u := unloadVal i tb scale (matVal s i.c i.q dead mat (32 * e.2 + e.1))
    ⟨e.2, e.1, u.1, u.2.1, u.2.2.1, u.2.2.2, (ds.1.getD e.1 []).getD e.2 (0, 0)⟩
  let td := i.l.pos (i.slot 3) m
  let te := i.l.pos (i.slot 4) m
  let r1 := putCells true acc.g i.c sd td (convOf sd) (all.map (UnlEl.first sd.od))
  let r2 := match se with
    | none => (r1.1, (0 : Fl))
    | some st => putCells true r1.1 i.c st te (convOf st) (all.map (UnlEl.second st.od))
  let f0 := (all.filter fun e => e.inside sd.od td || (match se with | none => false | some st => e.inside st.od te)).foldl
    (fun f e => f ||| e.fl) 0
  let read (k : Nat) : List Eff := matReads i.q 1 errs fun a => a / 1024 == mat && a % 32 == k
  let cols := ((upto 31).map fun k => read k ++ (ds.2.1.getD k []).effs) ++
    [read 31 ++ (ds.2.1.getD 31 []).effs ++ r2.1.eff ++ clearMat i mat]
  { g := r2.1.next, d := ds.2.2, fl := acc.fl ||| f0 ||| r1.2 ||| r2.2, effs := acc.effs ++ cols
    hit := (all.flatMap UnlEl.met).foldl nins acc.hit }

/-- R224, R396: the view that evaluations of a slot take of its table: the words at which an armed error waits. Word index
784 × slot + word. Log entry 6, DESIGN CHOICE. -/
def curveView (s : State) (c slot : Nat) : CurveView :=
  if slot = 0 then ⟨[], [], []⟩
  else
    let errs := (s.probeAll 0x12 c [1, 2] (slot * 784)
      (fun a => decide (slot * 784 ≤ a) && decide (a < slot * 784 + 784)) 16).1
    ⟨curveTable s c slot, errs.map (·.2 - slot * 784), (deadWords errs).map (· - slot * 784)⟩
/-- R224, R396: the errors of the words that evaluations did read: a corrected one, and an uncorrectable one that is
Contained for the context that evaluates. Log entry 6, DESIGN CHOICE. -/
def curveFire (s : State) (c : Nat) (x : Ctx) (slot : Nat) (hit : List Nat) : State :=
  if hit.isEmpty then s
  else
    let pr := s.probeAll 0x12 c [1, 2] (slot * 784 + hit.headD 0)
      (fun a => decide (slot * 784 ≤ a) && hit.contains (a - slot * 784)) 16
    pr.1.foldl (coreWordFire 0x12 c x) pr.2

def unloadStart (s : State) (i : Iss) : State :=
  if i.empty then launch s i [] 0
  else
    match i.strm 3 with
    | none => s
    | some sd =>
      let se := if wb i.w 30 then i.strm 4 else none
      let n := prod i.l.active
      let slot := wf i.w 31 5
      let s1 := rngCheck s i.c i.x (256 + 32 * i.q) 32
      let sc := unloadScale s i.c i.w sd
      let r := (upto n).foldl
        (unloadMat s1 i sd se sc.1 (curveView s i.c slot) (matErrs s1 i.c i.q ((upto n).map (· + wf i.w 38 6))))
        { g := { mem := s.mem }, d := [], fl := sc.2, effs := [] }
      pwrIssue (launch (curveFire s1 i.c i.x slot r.hit) i r.effs r.fl) i.c i.q

def execUnload (core : CoreId) (eng : EngId) (s : State) : Host.Outcome State Fault Refusal :=
  .next (issue s core eng (isOp 1 0) unloadSlots unloadResv noHold unloadChecks unloadStart)

/-! ## Supply-current events -/

def execRampdownStart (core : CoreId) (eng : EngId) (s : State) : Host.Outcome State Fault Refusal :=
  ifAlive s (rampdownStart s core eng)
def execRampStep (core : CoreId) (eng : EngId) (s : State) : Host.Outcome State Fault Refusal :=
  ifAlive s (rampStep s core eng)

/-! ## The debug window (R197 to R199) -/

/-- R167: the check of one mat word that the window reads. Log entry 6, DESIGN CHOICE. -/
def wordCheck (s : State) (c e a : Nat) : List Nat × State :=
  let pr := s.probeAll 0x10 (c * 2 + e) [1, 2] a (· == a) 16
  ((pr.1.filter (·.1 != 1)).map (·.2), pr.1.foldl (matFire c e 1) pr.2)

/-- What a read of WVDBGDATc returns. Log entry 6, DESIGN CHOICE. -/
def wvdbgdat (s : State) (c col : Nat) : W32 × State :=
  let r := s.check 0x0A c [1] 0 (fun _ => true) (if s.fbit (R.CPCTL_DBGEN c) then none else some 1)
  let s := r.2.2
  if r.1.isSome then (0, s.reportFrom .notice 0x0A c 1 .none 9 0 (s.endpoint 0) r.2.1)
  else
    let e := s.fget (R.WVDBGSEL_ENG c)
    let a := s.fget (R.WVDBGSEL_MAT c) * 1024 + 32 * s.fget (R.WVDBGSEL_ROW c) + col
    let m := wordCheck s c e a
    (if !m.1.isEmpty then 0x7FC00000#32 else tget 0 (s.core c).mats (e * 65536 + a), m.2)

end Sys2Proof.Machine
end

