-- ==== Sys2Proof/Machine/Vector.lean ====
section
/-! DEFINITION. Sys2Proof/Machine/Vector.lean: the vector unit (R205 to R252, R338 to R345, R860): element operations,
reductions, moments, top-k selection, curve loads and generator operations. Element groups are handled in nest order,
each reading what the groups before it have written. -/

namespace Sys2Proof.Machine

/-! ## FP32 operations beyond those of Fp -/

/-- The exact quotient of two finite values, b not zero, kept to 63 bits and a sticky bit: enough for one rounding to
FP32. -/
def quotient (s : Bool) (m1 : Nat) (e1 : Int) (m2 : Nat) (e2 : Int) : FVal :=
  let k := 64 + Nat.log2 m2
  let n := m1 * 2 ^ k
  .fin s (2 * (n / m2) + (if n % m2 = 0 then 0 else 1)) (e1 - e2 - k - 1)
/-- FP32 division, rounded once. A zero divisor gives ±∞ without OVFNF (R216). -/
def div32 (a b : FVal) : FVal × Fl :=
  match a, b with
  | .nan, _ => (.nan, 0)
  | _, .nan => (.nan, 0)
  | .inf _, .inf _ => (.nan, Fl.nangen)
  | .inf x, .fin y _ _ => (.inf (x != y), 0)
  | .fin x _ _, .inf y => (.fin (x != y) 0 0, 0)
  | .fin x m1 e1, .fin y m2 e2 =>
    if m2 = 0 then (if m1 = 0 then (.nan, Fl.nangen) else (.inf (x != y), 0))
    else if m1 = 0 then (.fin (x != y) 0 0, 0)
    else round32 (quotient (x != y) m1 e1 m2 e2)
/-- R214, R216: 1 / A. -/
def rcp32 (a : FVal) : FVal × Fl := div32 (fNat 1) a
/-- R214, R216: 1 / √A, correctly rounded. -/
def rsqrt32 (a : FVal) : FVal × Fl :=
  match a with
  | .nan => (.nan, 0)
  | .inf true => (.nan, Fl.nangen)
  | .inf false => (.fin false 0 0, 0)
  | .fin sg m e =>
    if m = 0 then (.inf sg, 0)
    else if sg then (.nan, Fl.nangen)
    else
      let odd := e % 2 != 0
      let m' := if odd then 2 * m else m
      let h := (if odd then e - 1 else e) / 2
      let k := 64 + Nat.log2 m'
      let q := isqrt (k + 1) (2 ^ (2 * k) / m')
      round32 (.fin false (2 * q + (if q * q * m' = 2 ^ (2 * k) then 0 else 1)) (-h - k - 1))
/-- R122: the minimum; −0 is below +0. -/
def min32 (a b : FVal) : FVal :=
  if a.isNan || b.isNan then .nan
  else if a.lt b then a else if b.lt a then b else if a.neg? then a else b
def max32 (a b : FVal) : FVal :=
  if a.isNan || b.isNan then .nan
  else if a.lt b then b else if b.lt a then a else if a.neg? then b else a

/-! ## The instruction's shape -/

def vLw (w : W128) : Nat := wf w 42 2
def vConv (w : W128) : Conv := (Conv.ofCode (wf w 39 3)).getD ⟨false, .near⟩
/-- R338: the selector of operand k, from A (0) to E (4). -/
def vSel (w : W128) (k : Nat) : Nat := wf w (33 - 6 * k) 6
def selReg (n : Nat) : Bool := decide (32 ≤ n)
def selStream (n : Nat) : Bool := n == 1
def selNone (n : Nat) : Bool := n == 0
/-- R342: groups per tile, and rows or columns per group. -/
def vG (lw : Nat) : Nat := 4 / 2 ^ lw
def vPer (lw : Nat) : Nat := 8 * 2 ^ lw
/-- R205: elements per group. -/
def vL (lw : Nat) : Nat := 256 * 2 ^ lw
def vSlots (w : W128) : List Nat := [0, 1, 2, 3, 4].filter fun k => selStream (vSel w k)

/-- R206: the format of register operands. -/
def vRegFmt (i : Iss) : Fmt :=
  match vLw i.w with
  | 0 => .fp32
  | 1 => .bf16
  | _ =>
    match [3, 4, 0, 1, 2].filterMap fun k => (i.strm k).map Strm.f with
    | f :: _ => f
    | [] => .e4m3

/-- R340: the OPX bits an operation leaves reserved. -/
def opxResv (op : Nat) : Nat :=
  match op with
  | 0x10 => 0x00F | 0x11 => 0x003 | 0x1C | 0x1D => 0x07F | 0x20 => 0x000 | 0x28 => 0x00F
  | _ => 0x1FF
def vResv (w : W128) : Nat := opxResv (opOf w)

/-- R227: segment width w; 0 where reserved. -/
def segW (rseg : Nat) : Nat := match rseg with | 0 => 1 | 1 => 32 | 2 => 256 | _ => 0

def vregRange (s : State) (c : Nat) (x : Ctx) : Nat × Nat := s.jrange x 0x12 c

/-- What an operation asks of its operands (R214, R339): for A to E, 0 none, 1 required, 2 optional; the lane widths it
runs at; whether it reduces. -/
structure VShape where
  need : List Nat
  widths : List Nat
  reduces : Bool := false
  /-- The operation uses RSEG. -/
  seg : Bool := false
  /-- The destination must be a register (R215). -/
  regD : Bool := false
deriving DecidableEq, Repr

/-- R342: the tile and the group in it of a position. -/
def vTile (lw : Nat) (p : Int) : Int × Nat := (p / (vG lw : Nat), (p % (vG lw : Nat)).toNat)
/-- R342: the tile coordinates of element e of group g. -/
def vCoord (lw orient g e : Nat) : Nat × Nat :=
  let k := vPer lw * g + e / 32
  if orient = 0 then (k, e % 32) else (e % 32, k)

/-! ## Checks -/

/-- Byte offsets of the lowest and highest byte that elements 0 to n − 1 of a group touch in its tile. -/
def groupSpan (st : Strm) (lw g n : Nat) : Nat × Nat :=
  let f := st.f
  let r0 := vPer lw * g
  let ra := if st.od.orient = 0 then r0 else 0
  let rb := if st.od.orient = 0 then r0 + cdiv n 32 else min n 32
  if st.od.linear then (ra * f.row, (rb - 1) * f.row + cdiv ((n - 32 * (cdiv n 32 - 1)) * f.bits) 8 - 1)
  else (256 * (f.w * ra / 32), 256 * ((f.w * rb - 1) / 32) + 255)

/-- R329 for a stream of groups: positions lo to hi, n elements at each. -/
def groupsGranted (s : State) (i : Iss) (st : Strm) (lo hi : Int) (n : Nat) : Bool :=
  let lw := vLw i.w
  let a := vTile lw lo
  let b := vTile lw hi
  let da := groupSpan st lw a.2 n
  let db := groupSpan st lw b.2 n
  spanGranted s i.c i.x st.od (st.od.tileAt a.1 + da.1, st.od.tileAt b.1 + db.2) &&
  (!st.f.isMx || spanGranted s i.c i.x st.od (scaleSpan st.od a.1 b.1))

/-- R329, R375: a stream of an element operation; `n` elements at each position, `extra` positions beyond. -/
def vStreamBad (s : State) (i : Iss) (k : Nat) (out : Bool) (n extra : Nat) : Bool :=
  match i.strm k with
  | none => false
  | some st =>
    let r := if out then i.outRange k else i.range k
    !placed st.od st.f || (!i.empty && !groupsGranted s i st r.1 (r.2 + extra) n)

/-- R212, R217: the formats of the streams. -/
def vFormatsBad (i : Iss) : Bool :=
  let lw := vLw i.w
  let fs := [0, 1, 2, 3, 4].filterMap i.strm
  fs.any (fun st =>
    match lw with
    | 1 => st.f != .bf16
    | 2 => st.f != .e4m3 && st.f != .e5m2
    | _ => st.f.isMx && (opOf i.w != 0x14 || st.od.baxis != st.od.orient)) ||
  decide (1 < (fs.filter fun st => st.f.isMx).length)

/-- The checks every element operation and reduction shares (R207, R212, R214, R215, R227, R327, R339).
Log entry 23, DEDUCED. -/
def vChecks (sh : VShape) (s : State) (i : Iss) : List (Nat × Bool) :=
  let w := i.w
  let lw := vLw w
  let vr := vregRange s i.c i.x
  [ (0x21, lw == 3 || (Conv.ofCode (wf w 39 3)).isNone),
    (0x21, [0, 1, 2, 3, 4].any fun k => decide (2 ≤ vSel w k) && decide (vSel w k < 32)),
    (0x21, sh.seg && i.ldOk && i.l.rseg == 3),
    (0x33, vFormatsBad i),
    (0x34, i.anyOd arithStreamBad),
    (0x35, i.ldOk && (if sh.reduces then !i.l.rmaskOk || i.l.rlev == 0 else i.l.rmask != 0)),
    (0x36, [0, 1, 2, 3, 4].any fun k => selReg (vSel w k) && !within vr (vSel w k - 32) 1),
    (0x37, !sh.widths.contains lw),
    (0x37, [0, 1, 2, 3, 4].any fun k =>
      match sh.need.getD k 0 with
      | 0 => !selNone (vSel w k)
      | 1 => selNone (vSel w k)
      | _ => false),
    (0x37, sh.regD && selStream (vSel w 3)) ]

/-- The checks of an element operation: every stream touches whole groups. -/
def vElemChecks (sh : VShape) (s : State) (i : Iss) : List (Nat × Bool) :=
  vChecks sh s i ++ [(0x34, [0, 1, 2, 3, 4].any fun k => vStreamBad s i k false (vL (vLw i.w)) 0)]

/-! ## Reading and writing groups -/

/-- An element read: value, NANIN and INFIN and any widening flag, inside the extent, stored bits. -/
structure VEl where
  val : FVal
  fl : Fl
  ins : Bool
  raw : Nat
deriving DecidableEq, Repr

/-- What an instruction has done so far: staged memory, vector registers, draws, flags, effects by group. -/
structure VAcc where
  g : Staged
  vr : Tab W32
  d : Draws
  fl : Fl
  cur : List Eff := []
  effs : List (List Eff) := []
  /-- Words of the curve table with an error that an evaluation read. -/
  hit : List Nat := []
  /-- Vector register words found damaged (R248) and not written since. -/
  dead : List Nat := []
deriving DecidableEq, Repr

/-- The element group an operand supplies; a damaged register word reads as NaN (R248). -/
def vRead (v : State) (i : Iss) (a : VAcc) (k : Nat) (p : Int) : List VEl :=
  let lw := vLw i.w
  let sel := vSel i.w k
  let n := 2 ^ lw
  if selReg sel then
    (upto (vL lw)).map fun e =>
      let idx := (sel - 32) * 256 + e / n
      let raw := bitsOf (tget 0 a.vr idx).toNat (32 / n * (e % n)) (32 / n)
      let x := if a.dead.contains idx then .nan else (vRegFmt i).decode raw
      ⟨x, x.inFlags, true, if a.dead.contains idx then ((vRegFmt i).layout.map Layout.nanBits).getD raw else raw⟩
  else
    match i.strm k with
    | none => (upto (vL lw)).map fun _ => ⟨.fin false 0 0, 0, true, 0⟩
    | some st =>
      let t := vTile lw p
      let m := { v with mem := a.g.mem }
      (upto (vL lw)).map fun e =>
        let c := vCoord lw st.od.orient t.2 e
        if st.od.outside t.1 c.1 c.2 then ⟨.fin false 0 0, 0, false, 0⟩
        else
          let x := st.value m i.c t.1 0 c.1 c.2
          let y := round32 x
          let raw := if elemPoison m st.f st.od.linear (st.tileDev i.c t.1 0) c.1 c.2
            then ((st.f.layout.map Layout.nanBits).getD 0)
            else elemBits m st.f st.od.linear (st.tileDev i.c t.1 0) c.1 c.2
          ⟨y.1, x.inFlags ||| (y.2 &&& Fl.ovfnf), true, raw⟩

/-- The words that a group of a stream reads. -/
def vWords (i : Iss) (k : Nat) (p : Int) : List Nat :=
  let lw := vLw i.w
  if selReg (vSel i.w k) then []
  else
    match i.strm k with
    | none => []
    | some st =>
      let t := vTile lw p
      let r := vPer lw * t.2
      (if st.od.orient = 0 then (⟨st, t.1, 0, r, vPer lw, 0, 32, true⟩ : Rect)
       else ⟨st, t.1, 0, 0, 32, r, vPer lw, true⟩).words i.c

/-- Words of every source over the whole instruction. -/
def vAllWords (i : Iss) (srcs : List Nat) : List Nat :=
  srcs.flatMap fun k => (upto (prod i.l.active)).flatMap fun n => vWords i k (i.l.pos (i.slot k) n)

/-- The registers that the named sources read, each with `more` registers after it. -/
def vSrcRegs (i : Iss) (more : Nat) (srcs : List Nat) : List Nat :=
  (srcs.filter fun k => selReg (vSel i.w k)).flatMap fun k => (upto (more + 1)).map (· + (vSel i.w k - 32))
/-- R248, R396: the check of the words of the registers that an instruction reads: those that are damaged. -/
def vregCheck (s : State) (i : Iss) (regs : List Nat) : List Nat × State :=
  let pr := if regs.isEmpty then ([], s)
    else s.probeAll 0x11 i.c [1, 2] (regs.headD 0 * 256) (fun a => regs.contains (a / 256)) 16
  (deadWords pr.1, pr.1.foldl (coreWordFire 0x11 i.c i.x) pr.2)

/-- Stored bits of elements 0, 1, … into a register, from element `from`. A word that is written is sound. -/
def vPutReg (a : VAcc) (lw reg : Nat) : Nat → List Nat → VAcc
  | _, [] => a
  | e, r :: rest =>
    let n := 2 ^ lw
    let idx := reg * 256 + e / n
    let old := (tget 0 a.vr idx).toNat
    vPutReg { a with
      vr := tput 0 a.vr idx (BitVec.ofNat 32 (setBits old (32 / n * (e % n)) (32 / n) r))
      dead := a.dead.filter (· != idx) } lw reg (e + 1) rest
/-- The words of a register as effects. -/
def vRegEffs (a : VAcc) (reg words : Nat) : List Eff :=
  (upto words).map fun k => .vreg (reg * 256 + k) (tget 0 a.vr (reg * 256 + k))

/-- R211: a register destination takes the lane width's own format, rounded to nearest even. Log entry 82, DEDUCED. -/
def vRegBits (i : Iss) (x : FVal) : Nat × Fl :=
  if vLw i.w = 0 then (x.bits32, 0) else convertTo (vRegFmt i) ⟨false, .near⟩ 0 x

/-- A value on its way to a destination: its draw, and whether its conversion sets no flag (R343, R860). -/
structure VOut where
  val : FVal
  draw : Nat := 0
  quiet : Bool := false
deriving DecidableEq, Repr

/-- CVT converts to FP32 too (R217); another operation converts only to another format (R211). -/
def vConverts (i : Iss) : Bool := opOf i.w == 0x14

/-- The group an operand receives. Log entry 82, DEDUCED. -/
def vWrite (i : Iss) (a : VAcc) (k : Nat) (p : Int) (vals : List VOut) : VAcc :=
  let lw := vLw i.w
  let sel := vSel i.w k
  if selReg sel then
    let rs := vals.map fun x => let r := vRegBits i x.val; (r.1, if x.quiet then 0 else r.2)
    let a := vPutReg a lw (sel - 32) 0 (rs.map (·.1))
    { a with fl := rs.foldl (fun f r => f ||| r.2) a.fl, cur := a.cur ++ vRegEffs a (sel - 32) (cdiv vals.length (2 ^ lw)) }
  else
    match i.strm k with
    | none => a
    | some st =>
      let t := vTile lw p
      let cells : Cells := ((upto vals.length).zip vals).map fun e =>
        let p := vCoord lw st.od.orient t.2 e.1
        ⟨p.1, p.2, e.2.val, e.2.draw, e.2.quiet⟩
      let r := putCells (vConverts i) a.g i.c st t.1 (vConv i.w) cells
      { a with g := r.1, fl := a.fl ||| r.2 }

/-- Raw bits into a register destination (R215). -/
def vWriteRaw (i : Iss) (a : VAcc) (k : Nat) (raws : List Nat) : VAcc :=
  let lw := vLw i.w
  let n := vSel i.w k - 32
  let a := vPutReg a lw n 0 raws
  { a with cur := a.cur ++ vRegEffs a n 256 }

/-- The end of an element group: its effects, and the draws made so far. -/
def VAcc.endGroup (a : VAcc) : VAcc :=
  { a with effs := a.effs ++ [a.d.effs ++ a.g.eff ++ a.cur], cur := [], g := a.g.next }

/-- R134: a destination that draws. -/
def vDraws (i : Iss) (k : Nat) : Bool :=
  selStream (vSel i.w k) &&
  (match i.strm k with | none => false | some st => drawsOf (vConverts i) st.f (vConv i.w))

/-- R133, R236: the draws of a group, sub-lane by sub-lane: for dropout, for D, for E. Log entry 86, DEDUCED. -/
def groupDraws (s : State) (i : Iss) (drop : Bool) : List Nat → Draws → List (Nat × Nat × Nat) × Draws
  | [], d => ([], d)
  | e :: r, d =>
    let lane := e / 2 ^ vLw i.w
    let a := if drop then draw s i.c i.x d lane else (0, d)
    let b := if vDraws i 3 then draw s i.c i.x a.2 lane else (0, a.2)
    let c := if vDraws i 4 then draw s i.c i.x b.2 lane else (0, b.2)
    let q := groupDraws s i drop r c.2
    ((a.1, b.1, c.1) :: q.1, q.2)

/-- The result of one element: D, E and the flags. -/
structure VRes where
  d : FVal
  e : FVal := .fin false 0 0
  fl : Fl
  /-- Bits for a register where the result is no number. -/
  raw : Option Nat := none
  /-- Words of the curve table with an error that an evaluation read. -/
  met : List Nat := []
deriving DecidableEq, Repr

/-- R343: the flags of an operation, which it sets where each of its sources lies inside its extent: an element outside sets
no flag. Log entry 87, DEDUCED. -/
def flWhere (xs : List VEl) (f : Fl) : Fl := if xs.all VEl.ins then f else 0

/-- One group of an element operation: `op` takes the elements of A, B and C and the dropout draw. The conversion of a
result whose named sources all lie outside sets no flag. Log entry 87, DEDUCED. -/
def elemGroup (s v : State) (i : Iss) (drop : Bool) (op : VEl → VEl → VEl → Nat → VRes)
    (a : VAcc) (n : Nat) : VAcc :=
  let p (k : Nat) := i.l.pos (i.slot k) n
  let xs := vRead v i a 0 (p 0)
  let ys := vRead v i a 1 (p 1)
  let zs := vRead v i a 2 (p 2)
  let ds := groupDraws s i drop (upto (vL (vLw i.w))) a.d
  let rs := (((xs.zip ys).zip zs).zip ds.1).map fun e =>
    let named := ([0, 1, 2].zip [e.1.1.1, e.1.1.2, e.1.2]).filter fun q => !selNone (vSel i.w q.1)
    (op e.1.1.1 e.1.1.2 e.1.2 e.2.1, named.all fun q => !q.2.ins, e.2)
  let a := { a with d := ds.2, fl := rs.foldl (fun f r => f ||| r.1.fl) a.fl
                    hit := (rs.flatMap fun r => r.1.met).foldl nins a.hit }
  let a := if rs.any fun r => r.1.raw.isSome
    then vWriteRaw i a 3 (rs.map fun r => r.1.raw.getD 0)
    else vWrite i a 3 (p 3) (rs.map fun r => ⟨r.1.d, r.2.2.2.1, r.2.1⟩)
  let a := if selNone (vSel i.w 4) then a else vWrite i a 4 (p 4) (rs.map fun r => ⟨r.1.e, r.2.2.2.2, r.2.1⟩)
  a.endGroup

/-- R362: an element operation, group by group; `fin` is what the damaged table words met lead to (R224). -/
def elemStart (drop : Bool) (op : State → Iss → VEl → VEl → VEl → Nat → VRes)
    (fin : List Nat → State → State) (s : State) (i : Iss) : State :=
  if i.empty then launch s i [] 0
  else
    let r := readChecked s i.c (vAllWords i [0, 1, 2]) (s.endpoint (0x80 + i.c))
    let vc := vregCheck r.2 i (vSrcRegs i 0 [0, 1, 2])
    let s2 := if drop || vDraws i 3 || vDraws i 4 then rngCheck vc.2 i.c i.x 0 256 else vc.2
    let a := (upto (prod i.l.active)).foldl (elemGroup s2 r.1 i drop (op s i))
      { g := { mem := s.mem }, vr := (s.core i.c).vregs, d := [], fl := 0, dead := vc.1 }
    launch (fin a.hit s2) i a.effs a.fl

/-- The issue of an element operation. -/
def vElem (core op : Nat) (sh : VShape) (drop : Bool) (more : State → Iss → List (Nat × Bool))
    (f : State → Iss → VEl → VEl → VEl → Nat → VRes) (s : State) : Host.Outcome State Fault Refusal :=
  .next (issue s core 2 (isOp 2 op) vSlots vResv noHold (fun s i => vElemChecks sh s i ++ more s i)
    (elemStart drop f fun _ s => s))
def noChecks (_ : State) (_ : Iss) : List (Nat × Bool) := []

def shA (widths : List Nat) : VShape := { need := [1, 0, 0, 1, 0], widths := widths }
def shAB (widths : List Nat) : VShape := { need := [1, 1, 0, 1, 0], widths := widths }

/-! ## Element operations (R214 to R217) -/

/-- An operation on A alone: the value and flags of `f`, with the operand's own flags. -/
def un (f : FVal → FVal × Fl) (_ : State) (_ : Iss) (a _ _ : VEl) (_ : Nat) : VRes :=
  let r := f a.val
  { d := r.1, fl := a.fl ||| flWhere [a] r.2 }
def bin (f : FVal → FVal → FVal × Fl) (_ : State) (_ : Iss) (a b _ : VEl) (_ : Nat) : VRes :=
  let r := f a.val b.val
  { d := r.1, fl := a.fl ||| b.fl ||| flWhere [a, b] r.2 }
/-- A × B + C: with C outside, the flags are those of the product. -/
def fma (_ : State) (_ : Iss) (a b c : VEl) (_ : Nat) : VRes :=
  let r := fma32 a.val b.val c.val
  { d := r.1, fl := a.fl ||| b.fl ||| c.fl ||| flWhere [a, b] r.2 }

def execVMov (core : CoreId) (s : State) : Host.Outcome State Fault Refusal :=
  vElem core 0x00 (shA [0, 1, 2]) false noChecks (un fun a => (a, 0)) s
def execVAdd (core : CoreId) (s : State) : Host.Outcome State Fault Refusal :=
  vElem core 0x01 (shAB [0, 1, 2]) false noChecks (bin add32) s
def execVSub (core : CoreId) (s : State) : Host.Outcome State Fault Refusal :=
  vElem core 0x02 (shAB [0, 1, 2]) false noChecks (bin fun a b => add32 a b.negate) s
def execVMul (core : CoreId) (s : State) : Host.Outcome State Fault Refusal :=
  vElem core 0x03 (shAB [0, 1, 2]) false noChecks (bin mul32) s
def execVFma (core : CoreId) (s : State) : Host.Outcome State Fault Refusal :=
  vElem core 0x04 { need := [1, 1, 1, 1, 0], widths := [0, 1] } false noChecks fma s
def execVMin (core : CoreId) (s : State) : Host.Outcome State Fault Refusal :=
  vElem core 0x05 (shAB [0, 1, 2]) false noChecks (bin fun a b => (min32 a b, 0)) s
def execVMax (core : CoreId) (s : State) : Host.Outcome State Fault Refusal :=
  vElem core 0x06 (shAB [0, 1, 2]) false noChecks (bin fun a b => (max32 a b, 0)) s
def execVAbs (core : CoreId) (s : State) : Host.Outcome State Fault Refusal :=
  vElem core 0x07 (shA [0, 1, 2]) false noChecks (un fun a => (a.abs, 0)) s
def execVNeg (core : CoreId) (s : State) : Host.Outcome State Fault Refusal :=
  vElem core 0x08 (shA [0, 1, 2]) false noChecks (un fun a => (a.negate, 0)) s

/-- R215: the mask of a comparison; a comparison with NaN sets no flag. Log entry 22, DEDUCED. -/
def cmp (f : FVal → FVal → Bool) (_ : State) (i : Iss) (a b _ : VEl) (_ : Nat) : VRes :=
  { d := .fin false 0 0, fl := if a.val.isNan || b.val.isNan then 0 else a.fl ||| b.fl
    raw := some (if f a.val b.val then 2 ^ (32 / 2 ^ vLw i.w) - 1 else 0) }
def shCmp : VShape := { need := [1, 1, 0, 1, 0], widths := [0, 1, 2], regD := true }
def execVCmpeq (core : CoreId) (s : State) : Host.Outcome State Fault Refusal :=
  vElem core 0x09 shCmp false noChecks (cmp FVal.eqv) s
def execVCmpne (core : CoreId) (s : State) : Host.Outcome State Fault Refusal :=
  vElem core 0x0A shCmp false noChecks (cmp fun a b => !a.eqv b) s
def execVCmplt (core : CoreId) (s : State) : Host.Outcome State Fault Refusal :=
  vElem core 0x0B shCmp false noChecks (cmp FVal.lt) s
def execVCmple (core : CoreId) (s : State) : Host.Outcome State Fault Refusal :=
  vElem core 0x0C shCmp false noChecks (cmp FVal.le) s

/-- The high bit of an element of operand k. -/
def highBit (i : Iss) (k : Nat) (e : VEl) : Bool :=
  let w := if selReg (vSel i.w k) then 32 / 2 ^ vLw i.w
    else match i.strm k with | none => 32 | some st => st.f.bits
  bitOf e.raw (w - 1)
/-- R214: SEL passes the selected element's bits; a stream element in another format is widened, and a NaN is written as
the canonical NaN (R110, R111). Log entry 22, DEDUCED. -/
def sel (_ : State) (i : Iss) (a b c : VEl) (_ : Nat) : VRes :=
  let k := if highBit i 2 c then 0 else 1
  let e := if highBit i 2 c then a else b
  let r := if selReg (vSel i.w k) && !e.val.isNan then (e.raw, 0) else vRegBits i e.val
  { d := .fin false 0 0, fl := a.fl ||| b.fl ||| flWhere [e] r.2, raw := some r.1 }
def execVSel (core : CoreId) (s : State) : Host.Outcome State Fault Refusal :=
  vElem core 0x0D { need := [1, 1, 1, 1, 0], widths := [0, 1, 2], regD := true } false noChecks sel s

def execVRcp (core : CoreId) (s : State) : Host.Outcome State Fault Refusal :=
  vElem core 0x0E (shA [0]) false noChecks (un rcp32) s
def execVRsqrt (core : CoreId) (s : State) : Host.Outcome State Fault Refusal :=
  vElem core 0x0F (shA [0]) false noChecks (un rsqrt32) s
def execVCvt (core : CoreId) (s : State) : Host.Outcome State Fault Refusal :=
  vElem core 0x14 (shA [0]) false noChecks (un fun a => (a, 0)) s

/-! ## CURVE, CGRAD, DROP -/

/-- A start that evaluates a curve table as it is found, with the errors of its words (R224). -/
def curveStart (slotOf : State → Iss → Nat) (op : CurveView → State → Iss → VEl → VEl → VEl → Nat → VRes)
    (s : State) (i : Iss) : State :=
  elemStart false (op (curveView s i.c (slotOf s i))) (fun hit t => curveFire t i.c i.x (slotOf s i) hit) s i
/-- R220: the curve table at A. -/
def curveOp (tb : CurveView) (_ : State) (_ : Iss) (a _ _ : VEl) (_ : Nat) : VRes :=
  let r := tb.eval a.val
  { d := r.1, fl := a.fl ||| flWhere [a] r.2, met := tb.met a.val }

/-- Log entry 98, DEDUCED. -/
def execVCurve (core : CoreId) (s : State) : Host.Outcome State Fault Refusal :=
  .next (issue s core 2 (isOp 2 0x10) vSlots vResv noHold
    (fun s i => vElemChecks (shA [0]) s i ++
      [(0x36, wf i.w 4 5 == 0 || curveBad s i.c i.x (wf i.w 4 5))])
    (curveStart (fun _ i => wf i.w 4 5) curveOp))

/-- R225, R226: CGRAD finds a derivative. Log entry 98, DEDUCED. -/
def cgradBad (s : State) (i : Iss) : Bool :=
  let slot := wf i.w 4 5
  curveBad s i.c i.x slot ||
  (match derivOf s i.c slot (wf i.w 2 2) with
   | .undefined => true
   | .table d => curveBad s i.c i.x d
   | _ => false)
def cgradSlot (s : State) (i : Iss) : Nat :=
  match derivOf s i.c (wf i.w 4 5) (wf i.w 2 2) with
  | .table d => d
  | _ => 0
/-- R225: g from B, and the flags of its evaluation. -/
def cgradG (tb : CurveView) (s : State) (i : Iss) (b : FVal) : FVal × Fl :=
  match derivOf s i.c (wf i.w 4 5) (wf i.w 2 2) with
  | .table _ => tb.eval b
  | .self => (b, 0)
  | _ => (if b.isNan then .nan else if (FVal.fin false 0 0).lt b then fNat 1 else .fin false 0 0, 0)
def cgrad (tb : CurveView) (s : State) (i : Iss) (a b _ : VEl) (_ : Nat) : VRes :=
  let g := cgradG tb s i b.val
  let r := mul32 a.val g.1
  { d := r.1, fl := a.fl ||| b.fl ||| flWhere [b] g.2 ||| flWhere [a, b] r.2
    met := match derivOf s i.c (wf i.w 4 5) (wf i.w 2 2) with | .table _ => tb.met b.val | _ => [] }
def execVCgrad (core : CoreId) (s : State) : Host.Outcome State Fault Refusal :=
  .next (issue s core 2 (isOp 2 0x11) vSlots vResv noHold
    (fun s i => vElemChecks (shAB [0]) s i ++ [(0x36, cgradBad s i)])
    (curveStart cgradSlot cgrad))

/-- R240: dropout. -/
def dropout (_ : State) (i : Iss) (a _ _ : VEl) (r : Nat) : VRes :=
  if r < i.l.imm1 % 65536 then { d := .fin a.val.neg? 0 0, e := .fin false 0 0, fl := a.fl }
  else
    let k := of32 i.l.imm0
    let x := mul32 a.val k
    { d := x.1, e := k, fl := a.fl ||| flWhere [a] (k.inFlags ||| x.2) }
def execVDrop (core : CoreId) (s : State) : Host.Outcome State Fault Refusal :=
  vElem core 0x12 { need := [1, 0, 0, 1, 2], widths := [0, 1, 2] } true
    (fun _ i => [(0x22, i.ldOk && decide (65536 ≤ i.l.imm1))]) dropout s

/-! ## Reductions and moments (R227 to R230, R860) -/

/-- A partial result of a lane or a tree node: count as FP32 (moments only), value or mean, sum of squared deviations, and the NANIN and INFIN
of the elements in it. -/
structure Part where
  n : FVal
  m : FVal
  q : FVal
  seen : Fl
deriving DecidableEq, Repr

/-- How an operation takes an element into a lane and combines two partials. -/
structure RedOp where
  first : FVal → FVal × Fl
  next : Part → FVal → Part × Fl
  comb : Part → Part → Part × Fl

def redSimple (f : FVal → FVal → FVal × Fl) (first : FVal → FVal × Fl) (next : FVal → FVal → FVal × Fl) : RedOp :=
  { first := first
    next := fun p x => let r := next p.m x; (⟨p.n, r.1, p.q, p.seen⟩, r.2)
    comb := fun a b => let r := f a.m b.m; (⟨a.n, r.1, a.q, a.seen ||| b.seen⟩, r.2) }
def redSum : RedOp := redSimple add32 (fun x => (x, 0)) add32
def redMax : RedOp := redSimple (fun a b => (max32 a b, 0)) (fun x => (x, 0)) fun a b => (max32 a b, 0)
def redMin : RedOp := redSimple (fun a b => (min32 a b, 0)) (fun x => (x, 0)) fun a b => (min32 a b, 0)
def redSumsq : RedOp := redSimple add32 (fun x => mul32 x x) fun acc x => fma32 x x acc
/-- R229: the combination of two moment partials. Log entry 93, DEDUCED. -/
def momComb (a b : Part) : Part × Fl :=
  let n := add32 a.n b.n
  let f := div32 b.n n.1
  let d := add32 b.m a.m.negate
  let m := fma32 d.1 f.1 a.m
  let dd := mul32 d.1 d.1
  let nf := mul32 a.n f.1
  let qq := add32 a.q b.q
  let q := fma32 dd.1 nf.1 qq.1
  (⟨n.1, m.1, q.1, a.seen ||| b.seen⟩, n.2 ||| f.2 ||| d.2 ||| m.2 ||| dd.2 ||| nf.2 ||| qq.2 ||| q.2)
/-- R229: the update of a lane. -/
def redMoments : RedOp :=
  { first := fun x => (x, 0)
    next := fun p x =>
      let k := (add32 p.n (fNat 1)).1
      let d := add32 x p.m.negate
      let iv := div32 (fNat 1) k
      let m := fma32 d.1 iv.1 p.m
      let e := add32 x m.1.negate
      let q := fma32 d.1 e.1 p.q
      (⟨k, m.1, q.1, p.seen⟩, d.2 ||| iv.2 ||| m.2 ||| e.2 ||| q.2)
    comb := momComb }

/-- One group into the lanes; elements outside the extent are skipped (R343). -/
def lanesNext (op : RedOp) : List (Option Part) → List VEl → List (Option Part) × Fl
  | l :: ls, e :: es =>
    let r := lanesNext op ls es
    if !e.ins then (l :: r.1, r.2)
    else
      match l with
      | none => let x := op.first e.val; (some ⟨fNat 1, x.1, .fin false 0 0, e.fl⟩ :: r.1, x.2 ||| r.2)
      | some p =>
        let x := op.next p e.val
        (some { x.1 with seen := x.1.seen ||| e.fl } :: r.1, x.2 ||| r.2)
  | ls, _ => (ls, 0)

/-- R228, R860: one level of the tree over consecutive lanes. -/
def pairComb (op : RedOp) : List (Option Part) → List (Option Part) × Fl
  | some a :: some b :: r =>
    let x := op.comb a b
    let q := pairComb op r
    (some x.1 :: q.1, x.2 ||| q.2)
  | none :: b :: r => let q := pairComb op r; (b :: q.1, q.2)
  | a :: none :: r => let q := pairComb op r; (a :: q.1, q.2)
  | l => (l, 0)
def treeComb (op : RedOp) : Nat → List (Option Part) → Option Part × Fl
  | 0, l => (l.headD none, 0)
  | k + 1, l =>
    let p := pairComb op l
    let q := treeComb op k p.1
    (q.1, p.2 ||| q.2)
/-- The results of the segments, in lane order, each with the flags of its tree. -/
def segResults (op : RedOp) (w : Nat) (lanes : List (Option Part)) : List (Option Part × Fl) :=
  (chunksOf w 256 lanes).map fun l => treeComb op (Nat.log2 w) l

/-- R228: the flag tests of a result against its segment's own elements. -/
def segFl (p : Part) : Fl :=
  (if p.m.isNan && p.seen &&& Fl.nanin == 0 then Fl.nangen else 0) |||
  (match p.m with
   | .inf _ => if p.seen &&& (Fl.nanin ||| Fl.infin) == 0 then Fl.ovfnf else 0
   | _ => 0)

/-- What a reduction writes for a segment: values of D, values of E, flags; `quiet` when no element was read, whose results
set no flag (R860). -/
structure SegOut where
  d : List FVal
  e : List FVal
  fl : Fl := 0
  quiet : Bool := false
deriving DecidableEq, Repr
/-- R228, R860: SUM, MAXR, MINR, SUMSQ. -/
def simpleOut (empty : FVal) (r : Option Part × Fl) : SegOut :=
  match r.1 with
  | none => { d := [empty], e := [], quiet := true }
  | some p => { d := [p.m], e := [], fl := segFl p ||| (r.2 &&& Fl.under) }
/-- R230, R860: MOMENTS and MCOMB. -/
def momOut (outq vardiv : Bool) (r : Option Part × Fl) : SegOut :=
  match r.1 with
  | none =>
    if outq then { d := [.fin false 0 0], e := [.fin false 0 0, .fin false 0 0], quiet := true }
    else { d := [.nan], e := [.nan], quiet := true }
  | some p =>
    if outq then { d := [p.m], e := [p.q, p.n], fl := r.2 }
    else
      let k := if vardiv then add32 p.n (fInt (-1)) else (p.n, 0)
      let v := div32 p.q k.1
      { d := [p.m], e := [v.1], fl := r.2 ||| k.2 ||| v.2 }

/-- The draws of a result set's elements for one destination (R134). Log entry 86, DEDUCED. -/
def setDraws (s : State) (i : Iss) (k : Nat) : List Nat → Draws → List Nat × Draws
  | [], d => ([], d)
  | e :: r, d =>
    let a := if vDraws i k then draw s i.c i.x d (e % 256) else (0, d)
    let q := setDraws s i k r a.2
    (a.1 :: q.1, q.2)

/-- The writing of one result set (R344): D, and E where the operation names it, with a second group where E has 512
elements (R230). -/
def putResults (s : State) (i : Iss) (a : VAcc) (pd pe : Int) (outs : List SegOut) : VAcc :=
  let dv := outs.flatMap fun o => o.d.map fun v => (v, o.quiet)
  let ev := outs.flatMap fun o => o.e.map fun v => (v, o.quiet)
  let d1 := setDraws s i 3 (upto dv.length) a.d
  let d2 := setDraws s i 4 (upto ev.length) d1.2
  let out (l : List (FVal × Bool)) (ds : List Nat) : List VOut := (l.zip ds).map fun e => ⟨e.1.1, e.2, e.1.2⟩
  let a := vWrite i { a with fl := outs.foldl (fun f o => f ||| o.fl) a.fl, d := d2.2 } 3 pd (out dv d1.1)
  let es := out ev d2.1
  let a := if ev.isEmpty then a else vWrite i a 4 pe (es.take 256)
  if ev.length ≤ 256 then a
  else if selReg (vSel i.w 4) then
    let n := vSel i.w 4 - 31
    let a := vPutReg a 0 n 0 ((ev.drop 256).map fun v => v.1.bits32)
    { a with cur := a.cur ++ vRegEffs a n 256 }
  else vWrite i a 4 (pe + 1) (es.drop 256)

/-- The reduction iterations of output iteration o, then its result set. -/
def redOne (s v : State) (i : Iss) (op : RedOp) (out : Option Part × Fl → SegOut) (inFlags : Fl)
    (a : VAcc) (o : Nat) : VAcc :=
  let w := segW i.l.rseg
  let n := i.l.redN
  let r := (upto n).foldl (fun (acc : VAcc × List (Option Part) × Fl) ρ =>
    let els := vRead v i acc.1 0 (i.l.pos (i.slot 0) (o * n + ρ))
    let x := lanesNext op acc.2.1 els
    let fl := els.foldl (fun f e => f ||| e.fl) 0
    let a := { acc.1 with fl := acc.1.fl ||| fl }
    (if ρ + 1 < n then a.endGroup else a, x.1, acc.2.2 ||| x.2)) (a, List.replicate 256 none, 0)
  let res := segResults op w r.2.1
  let a := { r.1 with fl := r.1.fl ||| (r.2.2 &&& inFlags) }
  (putResults s i a (i.l.outPos (i.slot 3) o) (i.l.outPos (i.slot 4) o) (res.map out)).endGroup

def redStart (op : RedOp) (out : Iss → Option Part × Fl → SegOut) (inFlags : Fl) (s : State) (i : Iss) : State :=
  if i.empty then launch s i [] 0
  else
    let r := readChecked s i.c (vAllWords i [0]) (s.endpoint (0x80 + i.c))
    let vc := vregCheck r.2 i (vSrcRegs i 0 [0])
    let s2 := if vDraws i 3 || vDraws i 4 then rngCheck vc.2 i.c i.x 0 256 else vc.2
    let a := (upto i.l.outN).foldl (redOne s2 r.1 i op (out i) inFlags)
      { g := { mem := s.mem }, vr := (s.core i.c).vregs, d := [], fl := 0, dead := vc.1 }
    launch s2 i a.effs a.fl

/-- Elements of a result set. -/
def setLen (i : Iss) : Nat := let w := segW i.l.rseg; if w = 0 then 0 else 256 / w
def redChecks (sh : VShape) (s : State) (i : Iss) : List (Nat × Bool) :=
  vChecks sh s i ++
  [ (0x34, vStreamBad s i 0 false 256 0 || vStreamBad s i 3 true (setLen i) 0) ]

def shRed : VShape := { need := [1, 0, 0, 1, 0], widths := [0], reduces := true, seg := true }
def redRow (core op : Nat) (r : RedOp) (empty : FVal) (s : State) : Host.Outcome State Fault Refusal :=
  .next (issue s core 2 (isOp 2 op) vSlots vResv noHold (redChecks shRed) (redStart r (fun _ => simpleOut empty) Fl.under))
def execVSum (core : CoreId) (s : State) : Host.Outcome State Fault Refusal := redRow core 0x18 redSum (.fin false 0 0) s
def execVMaxr (core : CoreId) (s : State) : Host.Outcome State Fault Refusal := redRow core 0x19 redMax (.inf true) s
def execVMinr (core : CoreId) (s : State) : Host.Outcome State Fault Refusal := redRow core 0x1A redMin (.inf false) s
def execVSumsq (core : CoreId) (s : State) : Host.Outcome State Fault Refusal :=
  redRow core 0x1B redSumsq (.fin false 0 0) s

/-- Elements of E's result set, and positions it takes beyond the first. -/
def momE (i : Iss) : Nat × Nat :=
  let n := if wb i.w 8 then 2 * setLen i else setLen i
  (min n 256, if 256 < n then 1 else 0)
/-- R230: a register E that continues past the context's range. -/
def momRegBad (s : State) (i : Iss) : Bool :=
  selReg (vSel i.w 4) && (momE i).2 == 1 && !within (vregRange s i.c i.x) (vSel i.w 4 - 32) 2

def shMom : VShape := { need := [1, 0, 0, 1, 1], widths := [0], reduces := true, seg := true }
def momChecks (s : State) (i : Iss) : List (Nat × Bool) :=
  redChecks shMom s i ++
  [ (0x34, vStreamBad s i 4 true (momE i).1 (momE i).2),
    (0x36, i.ldOk && momRegBad s i),
    (0x37, i.ldOk && !i.empty && decide (2 ^ 24 < i.l.redN * segW i.l.rseg)) ]
def execVMoments (core : CoreId) (s : State) : Host.Outcome State Fault Refusal :=
  .next (issue s core 2 (isOp 2 0x1C) vSlots vResv noHold momChecks
    (redStart redMoments (fun i => momOut (wb i.w 8) (wb i.w 7)) 0xFF))

/-! ## MCOMB: a set's means lie at the operand's position, its (Q, n) pairs from the position after it -/

def shMcomb : VShape := { need := [1, 1, 0, 1, 1], widths := [0], seg := true }
/-- Groups of an MCOMB source after the first: its (Q, n) pairs. -/
def mcombGroups (i : Iss) : Nat := if 256 < 2 * setLen i then 2 else 1
def mcombSrcBad (s : State) (i : Iss) (k : Nat) : Bool :=
  vStreamBad s i k false (min 256 (2 * setLen i)) (mcombGroups i)
def mcombRegBad (s : State) (i : Iss) (k : Nat) : Bool :=
  selReg (vSel i.w k) && !within (vregRange s i.c i.x) (vSel i.w k - 32) (1 + mcombGroups i)
def mcombChecks (s : State) (i : Iss) : List (Nat × Bool) :=
  vChecks shMcomb s i ++
  [ (0x34, mcombSrcBad s i 0 || mcombSrcBad s i 1 || vStreamBad s i 3 false (setLen i) 0 ||
      vStreamBad s i 4 false (momE i).1 (momE i).2),
    (0x36, i.ldOk && (momRegBad s i || mcombRegBad s i 0 || mcombRegBad s i 1)) ]

/-- Group j after an operand's own. -/
def vReadNext (v : State) (i : Iss) (a : VAcc) (k : Nat) (p : Int) (j : Nat) : List VEl :=
  let sel := vSel i.w k
  if selReg sel then
    (upto 256).map fun e =>
      let idx := (sel - 32 + j) * 256 + e
      let x := if a.dead.contains idx then .nan else wordVal (tget 0 a.vr idx)
      ⟨x, x.inFlags, true, 0⟩
  else vRead v i a k (p + j)

/-- The partials of a set of n results; a result with n = 0 is empty (R860). Log entry 93, DEDUCED. -/
def mcombSet (v : State) (i : Iss) (a : VAcc) (k : Nat) (p : Int) : List (Option Part) × Fl :=
  let n := setLen i
  let ms := (vReadNext v i a k p 0).take n
  let es := (((upto (mcombGroups i)).flatMap fun j => vReadNext v i a k p (j + 1))).take (2 * n)
  let one (m : Nat) : Option Part :=
    let c := (es.getD (2 * m + 1) ⟨.nan, 0, true, 0⟩).val
    if c.isZero then none
    else some ⟨c, (ms.getD m ⟨.nan, 0, true, 0⟩).val, (es.getD (2 * m) ⟨.nan, 0, true, 0⟩).val, 0⟩
  ((upto n).map one, (ms ++ es).foldl (fun f e => f ||| e.fl) 0)
def mcombTwo : Option Part → Option Part → Option Part × Fl
  | some a, some b => let r := momComb a b; (some r.1, r.2)
  | none, b => (b, 0)
  | a, none => (a, 0)
def mcombGroup (s v : State) (i : Iss) (a : VAcc) (n : Nat) : VAcc :=
  let p (k : Nat) := i.l.pos (i.slot k) n
  let x := mcombSet v i a 0 (p 0)
  let y := mcombSet v i a 1 (p 1)
  let outs := (x.1.zip y.1).map fun e => momOut (wb i.w 8) (wb i.w 7) (mcombTwo e.1 e.2)
  (putResults s i { a with fl := a.fl ||| x.2 ||| y.2 } (p 3) (p 4) outs).endGroup
def mcombWords (i : Iss) : List Nat :=
  [0, 1].flatMap fun k => (upto (prod i.l.active)).flatMap fun n => (upto (1 + mcombGroups i)).flatMap fun (j : Nat) =>
    vWords i k (i.l.pos (i.slot k) n + (j : Nat))
def mcombStart (s : State) (i : Iss) : State :=
  if i.empty then launch s i [] 0
  else
    let r := readChecked s i.c (mcombWords i) (s.endpoint (0x80 + i.c))
    let vc := vregCheck r.2 i (vSrcRegs i (mcombGroups i) [0, 1])
    let s2 := if vDraws i 3 || vDraws i 4 then rngCheck vc.2 i.c i.x 0 256 else vc.2
    let a := (upto (prod i.l.active)).foldl (mcombGroup s2 r.1 i)
      { g := { mem := s.mem }, vr := (s.core i.c).vregs, d := [], fl := 0, dead := vc.1 }
    launch s2 i a.effs a.fl
def execVMcomb (core : CoreId) (s : State) : Host.Outcome State Fault Refusal :=
  .next (issue s core 2 (isOp 2 0x1D) vSlots vResv noHold mcombChecks mcombStart)

/-! ## TOPK (R231 to R233) -/

/-- A candidate: its key, its value, its index. Candidates of a segment are listed in position order. -/
structure Cand where
  key : FVal
  val : FVal
  idx : W32
deriving DecidableEq, Repr

/-- R232: a ranks strictly above b, positions apart. -/
def Cand.above (a b : Cand) : Bool :=
  if a.key.isNan then !b.key.isNan else if b.key.isNan then false else b.key.lt a.key
/-- Insertion after every candidate that does not rank below. -/
def candIns (c : Cand) : List Cand → List Cand
  | [] => [c]
  | d :: r => if c.above d then c :: d :: r else d :: candIns c r
def candSort (l : List Cand) : List Cand := l.foldl (fun acc c => candIns c acc) []

def topkKey (w : W128) : Nat := wf w 6 3
def topkK (w : W128) : Nat := wf w 0 6 + 1
/-- R231: the candidate of a lane, and its flags. A pair's index word is the next lane's stored word, and in another
format than FP32 the word it widens to (R211). Log entry 93, DEDUCED. -/
def topkCand (i : Iss) (base pos : Nat) (a b nxt : VEl) : Cand × Fl :=
  let key := topkKey i.w
  let m := if key = 2 || key = 3 then mul32 a.val b.val else (a.val, 0)
  let k := if key = 1 || key = 3 || key = 4 then m.1.abs else m.1
  let fp32 := selReg (vSel i.w 0) || (i.strm 0).map Strm.f == some .fp32
  let idx : W32 :=
    if key = 4 then BitVec.ofNat 32 (if fp32 then nxt.raw else nxt.val.bits32) else BitVec.ofNat 32 (base + pos)
  (⟨k, m.1, idx⟩, a.fl ||| (if key = 2 || key = 3 then b.fl else 0) ||| m.2 |||
    (if k.isNan then Fl.nanin else 0))

/-- One group's candidates into the segments. Log entry 93, DEDUCED. -/
def topkGroup (i : Iss) (w : Nat) (xs ys : List VEl) (segs : List (List Cand)) :
    List (List Cand) × Fl :=
  let step := if topkKey i.w = 4 then 2 else 1
  let two := topkKey i.w = 2 || topkKey i.w = 3
  (upto (256 / step)).foldl (fun (acc : List (List Cand) × Fl) k =>
    let lane := k * step
    let dflt : VEl := ⟨.nan, 0, false, 0⟩
    let a := xs.getD lane dflt
    let b := ys.getD lane dflt
    if !a.ins || (two && !b.ins) then acc
    else
      let sg := acc.1.getD (lane / w) []
      let c := topkCand i i.l.imm0 sg.length a b (xs.getD (lane + 1) dflt)
      (acc.1.set (lane / w) (sg ++ [c.1]), acc.2 ||| c.2)) (segs, 0)

/-- R233: the bytes of a segment's entries. -/
def topkBytes (k : Nat) (seg : List Cand) : List Byte :=
  let top := (candSort seg).take k
  (top.flatMap fun c => leBytes 4 c.val.bits32 ++ leBytes 4 c.idx.toNat) ++
  (List.replicate (k - top.length) (leBytes 4 0 ++ leBytes 4 0xFFFFFFFF)).flatten

/-- R344: the byte offset in its tile of a group of a linear tile. -/
def topkAddr (st : Strm) (p : Int) : Int :=
  let t := vTile 0 p
  st.od.tileAt t.1 + (t.2 * 8 * st.f.row : Nat)

/-- Log entry 93, DEDUCED. -/
def topkOne (v : State) (i : Iss) (st : Strm) (a : VAcc) (o : Nat) : VAcc :=
  let w := segW i.l.rseg
  let n := i.l.redN
  let r := (upto n).foldl (fun (acc : VAcc × List (List Cand)) ρ =>
    let it := o * n + ρ
    let xs := vRead v i acc.1 0 (i.l.pos (i.slot 0) it)
    let ys := if selNone (vSel i.w 1) then [] else vRead v i acc.1 1 (i.l.pos (i.slot 1) it)
    let x := topkGroup i w xs ys acc.2
    let a := { acc.1 with fl := acc.1.fl ||| x.2 }
    (if ρ + 1 < n then a.endGroup else a, x.1)) (a, List.replicate (256 / w) [])
  let addr := spaceAddr i.c st.od.space (topkAddr st (i.l.outPos (i.slot 3) o)).toNat
  ({ r.1 with g := r.1.g.bytes addr (r.2.flatMap (topkBytes (topkK i.w))) }).endGroup

def topkStart (s : State) (i : Iss) : State :=
  if i.empty then launch s i [] 0
  else
    match i.strm 3 with
    | none => s
    | some st =>
      let r := readChecked s i.c (vAllWords i [0, 1]) (s.endpoint (0x80 + i.c))
      let vc := vregCheck r.2 i (vSrcRegs i 0 [0, 1])
      let a := (upto i.l.outN).foldl (topkOne r.1 i st)
        { g := { mem := s.mem }, vr := (s.core i.c).vregs, d := [], fl := 0, dead := vc.1 }
      launch vc.2 i a.effs a.fl

/-- R231, R344: N, k, the pair rule and the destination. Log entry 100, DEDUCED. -/
def topkChecks (s : State) (i : Iss) : List (Nat × Bool) :=
  let key := topkKey i.w
  let w := segW i.l.rseg
  let n := i.l.redN * (if key = 4 then w / 2 else w)
  let sh : VShape := { need := [1, if key = 2 || key = 3 then 1 else 0, 0, 1, 0], widths := [0], reduces := true, seg := true }
  vChecks sh s i ++
  [ (0x21, decide (5 ≤ key)),
    (0x22, i.ldOk && decide (65536 ≤ i.l.imm1)),
    (0x34, vStreamBad s i 0 false 256 0 || vStreamBad s i 1 false 256 0),
    (0x34, match i.strm 3 with
      | none => false
      | some st =>
        let r := i.outRange 3
        !placed st.od st.f ||
        (!i.empty && !spanGranted s i.c i.x st.od
          (topkAddr st r.1, topkAddr st r.2 + (setLen i * topkK i.w * 8 : Nat) - 1))),
    (0x37, i.ldOk && key == 4 && w == 1),
    (0x37, i.ldOk && !i.empty && !(decide (1 ≤ n) && decide (n ≤ 65536))),
    (0x37, selReg (vSel i.w 3) || (match i.od 3 with | none => false | some o => !o.linear)) ]
def execVTopk (core : CoreId) (s : State) : Host.Outcome State Fault Refusal :=
  .next (issue s core 2 (isOp 2 0x20) vSlots vResv noHold topkChecks topkStart)

/-! ## CRVLD, RSEED, RSAVE, RLOAD (R222, R238, R345) -/

/-- The checks of an operation on a plain byte range at a slot's BASE. -/
def rawChecks (slot n : Nat) (s : State) (i : Iss) : List (Nat × Bool) :=
  let w := i.w
  [ (0x21, vLw w == 3 || (Conv.ofCode (wf w 39 3)).isNone),
    (0x21, [0, 1, 2, 3, 4].any fun k => decide (2 ≤ vSel w k) && decide (vSel w k < 32)),
    (0x33, vFormatsBad i),
    (0x34, i.anyOd fun o => o.space != 0 || !o.linear || o.orient == 1),
    (0x34, match i.strm slot with
      | none => false
      | some st => !placed st.od st.f || !spanGranted s i.c i.x st.od ((st.od.base : Int), (st.od.base + n - 1 : Nat))),
    (0x35, i.ldOk && i.l.rmask != 0),
    (0x37, [0, 1, 2, 3, 4].any fun k => if k = slot then !selStream (vSel w k) else !selNone (vSel w k)) ]

/-- R398: the n bytes from a device address as the unit reads them: a poisoned word reads as the canonical NaN. -/
def rawBytes (v : State) (a n : Nat) : List Byte :=
  ((upto n).zip (v.ld a n)).map fun e =>
    if v.poison.contains ((a + e.1) / 4) then (leBytes 4 0x7FC00000).getD ((a + e.1) % 4) 0 else e.2

/-- The bytes at a slot's BASE. -/
def rawAddr (i : Iss) (slot : Nat) : Nat :=
  match i.od slot with
  | none => 0
  | some o => spaceAddr i.c o.space o.base

def execVCrvld (core : CoreId) (s : State) : Host.Outcome State Fault Refusal :=
  .next (issue s core 2 (isOp 2 0x28) vSlots vResv noHold
    (fun s i => rawChecks 0 3136 s i ++ [(0x36, !slotOwn s i.c i.x (wf i.w 4 5))])
    (fun s i =>
      let a := rawAddr i 0
      let r := readChecked s i.c (wordsOf a 3136) (s.endpoint (0x80 + i.c))
      let tb := rawBytes r.1 a 3136
      launch r.2 i [[.curve (wf i.w 4 5) tb (tableOk s i.c i.x tb)]] 0))

def execVRseed (core : CoreId) (s : State) : Host.Outcome State Fault Refusal :=
  .next (issue s core 2 (isOp 2 0x29) vSlots vResv noHold (rawChecks 0 8)
    (fun s i =>
      let a := rawAddr i 0
      let r := readChecked s i.c (wordsOf a 8) (s.endpoint (0x80 + i.c))
      launch r.2 i [[.reseed (BitVec.ofNat 64 (ofLe (rawBytes r.1 a 8)))]] 0))

/-- R238: the bytes of a state. -/
def rngBytes (g : Rng) : List Byte :=
  leBytes 4 g.s0.toNat ++ leBytes 4 g.s1.toNat ++ leBytes 4 g.s2.toNat ++ leBytes 4 g.s3.toNat
def execVRsave (core : CoreId) (s : State) : Host.Outcome State Fault Refusal :=
  .next (issue s core 2 (isOp 2 0x2A) vSlots vResv noHold (rawChecks 3 5120)
    (fun s i =>
      let s := rngCheck s i.c i.x 0 320
      let bs := (upto 320).flatMap fun p => rngBytes (rngAt s i.c i.x p)
      let g : Staged := Staged.bytes { mem := s.mem } (rawAddr i 3) bs
      launch s i [g.eff] 0))

/-- R238: the state of position p in an image; all zeros takes s0 = 1. -/
def rngOf (bs : List Byte) (p : Nat) : Rng :=
  let wd (k : Nat) : W32 := BitVec.ofNat 32 (ofLe ((bs.drop (16 * p + 4 * k)).take 4))
  Rng.fix ⟨wd 0, wd 1, wd 2, wd 3⟩
def execVRload (core : CoreId) (s : State) : Host.Outcome State Fault Refusal :=
  .next (issue s core 2 (isOp 2 0x2B) vSlots vResv noHold (rawChecks 0 5120)
    (fun s i =>
      let a := rawAddr i 0
      let r := readChecked s i.c (wordsOf a 5120) (s.endpoint (0x80 + i.c))
      let bs := rawBytes r.1 a 5120
      launch r.2 i [(upto 320).map fun p => .rng p (rngOf bs p)] 0))

end Sys2Proof.Machine
end

