-- ==== Sys2Proof/Machine/Cache.lean ====
section
/-! DEFINITION. Sys2Proof/Machine/Cache.lean: accesses to device memory through the shared caches (R376 to R382, R386 to
R399): lookups, fills and victims, reads with their storage checks, and writes. -/

namespace Sys2Proof.Machine

/-! ## Lines (R377 to R382) -/

/-- R380: the ways of a context in a region. -/
def waysOf (s : State) (r : Nat) : Ctx → Nat
  | .d => s.fget (R.SCCFG_CWAYD r)
  | .t => s.fget (R.SCCFG_CWAYT r)
/-- The region of a line (R20: region r owns stack r). -/
def lineRegion (num : Nat) : Nat := num / (stackBase 1 / 256)

/-- R381: the last line of a context that is neither retained nor pinned, removed. Log entry 32, DESIGN CHOICE. -/
def dropVictim (x : Ctx) : List Line → Option (List Line)
  | [] => none
  | l :: r =>
    match dropVictim x r with
    | some r' => some (l :: r')
    | none => if l.ctx = x && !l.retained && !l.pinned then some r else none

/-- R380, R381: allocation of a line for a context. Log entry 32, DESIGN CHOICE. -/
def allocLine (s : State) (num : Nat) (x : Ctx) (dirty retain : Bool) : State :=
  let l := s.lines num
  let r := lineRegion num
  let new : Line := ⟨num, x, dirty, retain, false⟩
  if (l.filter (·.ctx = x)).length < waysOf s r x then s.setLines num (new :: l)
  else
    match dropVictim x l with
    | some l' => s.setLines num (new :: l')
    | none => if waysOf s r x = 0 then s else s.bump (R.SCRETFULL r)

/-- R399: the line's words become poisoned and it is pinned. Log entry 33, DEDUCED. -/
def pinLine (s : State) (num : Nat) : State :=
  let s := { s with poison := ((upto 64).map (· + num * 64)).foldl nins s.poison }
  s.setLines num ((s.lines num).map fun l => if l.num = num then { l with pinned := true } else l)

/-- R398, R399, R807: the storage check of a line that a lookup hits, and the words whose error it has reported. An injected
error at a word that is poisoned anyway makes one report, of the uncorrectable word. Log entry 6, DESIGN CHOICE. -/
def lineCheck (s : State) (l : Line) (m : Nat) : List Nat × State :=
  let a := l.num * 256
  let r := lineRegion l.num
  let pr := s.probeIn 0x18 r (if l.dirty then [1, 2] else [1, 3]) a fun b => b / 256 == l.num
  match pr.1 with
  | none => ([], s)
  | some (k, b) =>
    let party := match ownerOf s b with | some x => ctxParty x | none => .host
    let unc (cls : Cls) (cause : Nat) : State :=
      (pr.2.bump (R.MEMUNC (r / 2))).reportFrom cls 0x18 r cause party 1 b m true
    if k = 2 then
      (if l.pinned then [b / 4] else (upto 64).map (· + l.num * 64), pinLine (unc .contained 2) l.num)
    else if s.poison.contains (b / 4) then ([b / 4], unc .contained 2)
    else if k = 1 then
      ([], (queueRewrite (pr.2.bump (R.MEMCOR (r / 2))) (r / 2) 0x18 r b).reportFrom .corrected 0x18 r 1 party 1 b m true)
    else
      let s := unc .corrected 3
      ([], s.setLines l.num ((s.lines l.num).filter (·.num != l.num)))

/-- What an armed point of a stack's detector does when it fires. Log entry 96, DEDUCED. -/
def hbmFire (k m : Nat) (s : State) (p : Nat × Nat) : State :=
  s.reportFrom (if p.1 = 1 then .corrected else .contained) 0x20 k p.1
    (match ownerOf s p.2 with | some x => ctxParty x | none => .host) 1 p.2 m true
/-- R386, R398: the check of a read of an HBM line: the words delivered poisoned, which stay so in the line that is filled
and in the stack until they are written. Log entry 32, DESIGN CHOICE. -/
def hbmCheck (s : State) (num m : Nat) : List Nat × State :=
  let k := lineRegion num
  let pr := s.probeAll 0x20 k [1, 2] (num * 256) (fun b => b / 256 == num) 16
  let errs := pr.1.map (worse s)
  let dead := (errs.filter (·.1 != 1)).map (·.2 / 4)
  let t := errs.foldl (hbmFire k m) pr.2
  (dead, { t with poison := dead.foldl nins t.poison })

/-- The key of a party that the Fault Hub can fence: 0 core, 1 channel, 2 port. -/
def fenceKey (kind idx : Nat) : Nat := kind * 128 + idx
/-- R796: the requester whose endpoint is `m`, as a key of `fenceKey`: a core; 384 where no party that can be fenced. -/
def partyOf (m : Nat) : Nat := if 0x80 ≤ m % 256 then m % 256 - 0x80 else 384

/-- R378 to R381: one lookup of a line by the requester `who`, made on behalf of `x` when it is a context. `write` tells a
write, `whole` one of the whole line. The words whose error is reported come with the state.
Log entry 32, DESIGN CHOICE. -/
def lookup (s : State) (x : Option Ctx) (chint num m : Nat) (write whole : Bool) (who : Nat := partyOf m) :
    List Nat × State :=
  let r := lineRegion num
  let retain := chint == 2 && x.isSome
  let hit (s : State) (l : Line) : State :=
    (s.setLines num ({ l with dirty := l.dirty || write, retained := l.retained || retain } ::
      (s.lines num).filter (·.num != num))).bump (R.SCHIT r)
  let miss (s : State) : List Nat × State :=
    match s.fills.find? (·.num == num) with
    | some _ =>
      ([], { s.bump (R.SCMERGE r) with
        fills := s.fills.map fun f => if f.num = num then
          { f with merged := f.merged ++ [⟨who, if chint = 1 then none else x, write, retain⟩] } else f })
    | none =>
      if write && whole then
        ([], match x with
          | some x => if chint = 1 then s else allocLine s num x true retain
          | none => s)
      else
        let h := hbmCheck s num m
        (h.1, { h.2.bump (R.SCMISS r) with
          fills := h.2.fills ++ [⟨num, if chint = 1 then none else x, write, retain, []⟩] })
  match s.line? num with
  | none => miss s
  | some l =>
    let c := lineCheck s l m
    match c.2.line? num with
    | none => miss c.2
    | some l => (c.1, hit c.2 l)

def lookups (s : State) (x : Option Ctx) (chint m who : Nat) (write : Bool) (whole : Nat → Bool) :
    List Nat → List Nat × State
  | [] => ([], s)
  | n :: r =>
    let a := lookup s x chint n m write (whole n) who
    let b := lookups a.2 x chint m who write whole r
    (a.1 ++ b.1, b.2)

/-- R379: a fill with the requests merged with it: the first context that allocates, and the marks of all.
Log entry 32, DESIGN CHOICE. -/
def Fill.whole (f : Fill) : Fill :=
  f.merged.foldl (fun f m => { f with ctx := f.ctx <|> m.ctx, dirty := f.dirty || m.dirty, retain := f.retain || m.retain }) f
/-- R796: the requests that a fenced party has merged with fills are dropped. Log entry 32, DESIGN CHOICE. -/
def dropMerged (s : State) (who : Nat) : State :=
  { s with fills := s.fills.map fun f => { f with merged := f.merged.filter (·.who != who) } }

/-- R379: the fill returns; the line enters the way of the context for which it was fetched.
Log entry 32, DESIGN CHOICE. -/
def fillComplete (s : State) (num : Nat) : State :=
  match s.fills.find? (·.num == num) with
  | none => s
  | some f =>
    let s := { s with fills := s.fills.filter (·.num != num) }
    let f := f.whole
    match f.ctx with
    | none => s
    | some x => if s.cached num then s else allocLine s num x f.dirty f.retain

/-! ## Accesses by byte address -/

def isHbm (a : Nat) : Bool := decide (a < 0x6000000000)
def isHostWin (a : Nat) : Bool := decide (0x800000000000 ≤ a) && decide (a < 0xC00000000000)
/-- The distinct numbers a / k of a list of addresses, rising. -/
def unitsOf (k : Nat) (as : List Nat) : List Nat := as.foldl (fun l a => nins l (a / k)) []

/-- R388, R390: an access to a CXL address is served: the port is up and the capacity is mapped.
Log entry 35, DESIGN CHOICE. -/
def cxlServes (s : State) (a : Nat) : Bool :=
  match tierOf a with
  | some (.cxl p) => s.fget (R.CXLSTAT_STATE p) == 2 &&
      decide ((a - cxlBase p) / 0x40000000 < s.fget (R.CXLSTAT_CAPG p))
  | _ => true

def wideKey (block sel : Nat) : Nat := block * 65536 + sel
def State.wideGet (s : State) (block sel : Nat) : Nat := (tget (0 : W64) s.wide (wideKey block sel)).toNat
def State.wideSet (s : State) (block sel : Nat) (v : W64) : State :=
  { s with wide := tput 0 s.wide (wideKey block sel) v }
/-- R391, R417, R689: the base of a host-window entry; its bit 0 enables it, while the function may be a bus master. -/
def hwBase (s : State) (w : Nat) : Nat := s.wideGet 2 (0x40 + w)
def hwEnabled (s : State) (a : Nat) : Bool :=
  hwBase s ((a - hostBase) / 0x10000000000) % 2 == 1 && s.fbit R.HIFSTAT_BME && !s.fbit R.HIFSTAT_D3
/-- R391: the host bus address of a host-window device address. -/
def hostAddr (s : State) (a : Nat) : Nat :=
  let w := (a - hostBase) / 0x10000000000
  hwBase s w / 4096 * 4096 + (a - hostBase) % 0x10000000000

/-- R368, R388, R390, R391: an access to the address completes without an error. -/
def serves (s : State) (a : Nat) : Bool :=
  match tierOf a with
  | none => false
  | some (.hostWin _) => hwEnabled s a
  | some _ => cxlServes s a

/-- Pieces of consecutive addresses that cross no 256-byte boundary: first and length. -/
def pieces : List Nat → List (Nat × Nat)
  | [] => []
  | a :: r =>
    match pieces r with
    | (b, n) :: t => if b = a + 1 && a / 256 = b / 256 then (a, n + 1) :: t else (a, 1) :: (b, n) :: t
    | [] => [(a, 1)]

/-- R391: the PCIe reads of the host-window bytes of an access. Log entry 7, DESIGN CHOICE. -/
def emitReads (s : State) (as : List Nat) : State :=
  (pieces (as.filter fun a => isHostWin a && hwEnabled s a)).foldl (fun s p => s.emit (.hostRead (hostAddr s p.1) p.2)) s

/-- Memory as a reader finds it: bytes of the host, and bytes of an access that fails, are free values.
Log entry 7, DESIGN CHOICE. -/
def overlay (s : State) (as : List Nat) : State :=
  as.foldl (fun s a =>
    if isHostWin a && hwEnabled s a then
      { s with mem := tput 0 s.mem a (Config.hostByte s.freeIdx (hostAddr s a)), freeIdx := s.freeIdx + 1 }
    else if !serves s a then { s with mem := tput 0 s.mem a (Config.freeByte s.freeIdx), freeIdx := s.freeIdx + 1 }
    else s) s

/-- The cores whose local stores hold some of the addresses. -/
def lsCores (as : List Nat) : List Nat :=
  as.foldl (fun l a => match tierOf a with | some (.ls c) => nins l c | _ => l) []

/-- R806, R389: the check of CXL read data that an injection point fires at: the word delivered poisoned.
Log entry 35, DESIGN CHOICE. -/
def cxlCheck (as : List Nat) (m : Nat) (acc : List Nat × State) (p : Nat) : List Nat × State :=
  match as.filter fun a => tierOf a == some (.cxl p) with
  | [] => acc
  | a :: r =>
    let pr := acc.2.probeIn 0x21 p [1] a ((a :: r).contains)
    match pr.1 with
    | none => acc
    | some (_, b) =>
      let party := match ownerOf pr.2 b with | some x => ctxParty x | none => .host
      (b / 4 :: acc.1, pr.2.reportFrom .contained 0x21 p 1 party 1 b m true)

/-- A read of device bytes made on behalf of `x` by the requester whose endpoint is `m` (R785): memory and poison as the
reader finds them, and the machine after the lookups, checks and reports (R386, R389, R396, R398). An injected error and the
error of a poisoned word make one report (R807). -/
def devRead (s : State) (x : Option Ctx) (chint : Nat) (as : List Nat) (m : Nat) (who : Nat := partyOf m) : State × State :=
  let lk := lookups s x chint m who false (fun _ => false) (unitsOf 256 (as.filter isHbm))
  let s1 := emitReads lk.2 as
  let ls := (lsCores as).foldl (fun (acc : State × State) c =>
    let r := readChecked acc.2 c (unitsOf 4 (as.filter fun a => tierOf a == some (.ls c))) m
    ({ r.1 with poison := acc.1.poison.foldl nins r.1.poison }, r.2)) (s1, s1)
  let far := unitsOf 4 (as.filter fun a => isHbm a || (match tierOf a with | some (.cxl _) => true | _ => false))
  let cx := [0, 1, 2, 3].foldl (cxlCheck as m) (lk.1, ls.2)
  let s2 := reportPoison cx.2 (cx.2.poison.filter fun w => far.contains w && !cx.1.contains w) m
  let view := overlay { s2 with poison := cx.1.foldl nins ls.1.poison } as
  (view, { s2 with freeIdx := view.freeIdx })

/-- The lookups that a write of device bytes makes on behalf of `x`. -/
def devTouch (s : State) (x : Option Ctx) (chint : Nat) (as : List Nat) (m : Nat) (who : Nat := partyOf m) : State :=
  let h := as.filter isHbm
  (lookups s x chint m who true (fun n => decide ((h.filter fun a => a / 256 == n).length = 256)) (unitsOf 256 h)).2

/-- R399: a pinned line reads as poison whatever is written to it. Log entry 33, DEDUCED. -/
def repin (s : State) (as : List Nat) : State :=
  { s with poison := (unitsOf 4 as).foldl (fun l w =>
      match s.line? (w / 64) with
      | some n => if n.pinned && isHbm (4 * w) then nins l w else l
      | none => l) s.poison }

/-- A run of consecutive cells written: to device memory, or through the host window. -/
def writeRun (s : State) (a : Nat) (bs : List Byte) (bad : Bool) : State :=
  match tierOf a with
  | some (.hostWin _) => if hwEnabled s a then s.emit (.hostWrite (hostAddr s a) bs bad) else s
  | some _ => if cxlServes s a then repin (s.st a bs) ((upto bs.length).map (· + a)) else s
  | none => s

/-- Cells as runs of consecutive addresses that cross no 256-byte boundary. -/
def runs : List Host.Cell → List (Nat × List Byte)
  | [] => []
  | (a, b) :: r =>
    match runs r with
    | (c, bs) :: t => if c = a + 1 && a / 256 = c / 256 then (a, b :: bs) :: t else (a, [b]) :: (c, bs) :: t
    | [] => [(a, [b])]

/-- R398, R478: bytes written at device addresses, the words of `bad` becoming poisoned; a fully written word loses its
poison otherwise. -/
def devWrite (s : State) (cells : List Host.Cell) (bad : List Nat) : State :=
  let s := (runs cells).foldl (fun s r => writeRun s r.1 r.2 ((wordsOf r.1 r.2.length).any bad.contains)) s
  { s with poison := (bad.filter fun w => !isHostWin (4 * w) && serves s (4 * w)).foldl nins s.poison }

/-- Bytes at consecutive addresses as cells, and the words that poisoned offsets touch. -/
def cellsAt (a : Nat) (bs : List Byte) : List Host.Cell := ((upto bs.length).zip bs).map fun e => (a + e.1, e.2)
def badWords (a : Nat) (offs : List Nat) : List Nat := offs.foldl (fun l o => nins l ((a + o) / 4)) []

/-! ## Reads of the MSP (R380, R398) -/

/-- What the MSP reads of n bytes: their cells and the machine after the read; the bytes of a poisoned word are free values.
Log entry 65, DESIGN CHOICE. -/
def mspRead (s : State) (a n : Nat) : List Host.Cell × State :=
  let as := (upto n).map (· + a)
  let r := devRead s none 0 as (s.endpoint 0)
  let q := as.foldl (fun (acc : List Host.Cell × Nat) a =>
    if r.1.poison.contains (a / 4) then (tput 0 acc.1 a (Config.freeByte acc.2), acc.2 + 1)
    else (tput 0 acc.1 a (tget 0 r.1.mem a), acc.2)) ([], r.2.freeIdx)
  (q.1, { r.2 with freeIdx := q.2 })

end Sys2Proof.Machine
end

