-- ==== Sys2Proof/Machine/Move.lean ====
section
/-! DEFINITION. Sys2Proof/Machine/Move.lean: the Move, Transfer, Sync and Control classes (R346 to R358): their checks and
the effects that they stage. -/

namespace Sys2Proof.Machine

/-! ## Move (R346 to R349) -/

def moveSlots (_ : W128) : List Nat := [0, 3]
def chintOf (w : W128) : Nat := wf w 42 2
/-- R347: bits [29:0], and RLEN of MOVET, are reserved. -/
def moveResv (w : W128) : Nat := 2 ^ 30 - 1 + if opOf w = 0 then 4095 * 2 ^ 30 else 0
def rlenOf (w : W128) : Nat := wf w 30 12 + 1

/-- R329: the byte range of a MOVER slot. -/
def Iss.bytesBad (s : State) (i : Iss) (k len : Nat) : Bool :=
  match i.od k with
  | none => false
  | some o => !i.empty && !spanGranted s i.c i.x o (spanOf o (i.range k).1 (i.range k).2 len (0, 0))

/-- R368: an iteration of a device stream reaches an address outside every range: with `len` bytes from its tile, or with
its scale bytes. -/
def Iss.reachesHole (i : Iss) (k len : Nat) (mx : Bool) : Bool :=
  match i.od k with
  | none => false
  | some o =>
    let hole (a : Int) : Bool := (tierOf a.toNat).isNone
    let far (n : Nat) : Bool :=
      let t := i.l.pos (i.slot k) n
      hole (o.tileAt t) || hole (o.tileAt t + len - 1) || (mx && (hole (scaleSpan o t t).1 || hole (scaleSpan o t t).2))
    o.space == 1 && !i.empty && (upto (prod i.l.active)).any far
/-- The same of a slot of whole tiles. -/
def Iss.tilesHole (i : Iss) (k : Nat) : Bool :=
  match i.strm k with
  | none => false
  | some st => i.reachesHole k (st.f.tile st.od.linear) st.f.isMx

/-- R327: device and remote descriptors are linear, and a linear tile in local store is not read or written by columns. -/
def layoutBad (o : OpD) : Bool :=
  ((o.space == 1 || o.space == 2) && !o.linear) || (o.space == 0 && o.linear && o.orient == 1)

def moveChecks (s : State) (i : Iss) : List (Nat × Bool) :=
  let tile := opOf i.w == 0
  [ (0x21, chintOf i.w == 3),
    (0x33, tile && match i.od 0, i.od 3 with | some a, some d => a.fmt != d.fmt | _, _ => false),
    (0x34, i.anyOd fun o => o.space == 2),
    (0x34, match i.od 0, i.od 3 with | some a, some d => a.space != 0 && d.space != 0 | _, _ => false),
    (0x34, tile && i.anyOd layoutBad),
    (0x34, if tile then i.tilesBad s 0 0 || i.tilesBad s 3 0
           else i.bytesBad s 0 (rlenOf i.w) || i.bytesBad s 3 (rlenOf i.w)),
    (0x34, if tile then i.tilesHole 0 || i.tilesHole 3
           else i.reachesHole 0 (rlenOf i.w) false || i.reachesHole 3 (rlenOf i.w) false),
    (0x35, i.ldOk && i.l.rmask != 0) ]

/-- What one iteration of a Move reads and writes: pairs of device byte addresses, or elements. -/
structure MoveStep where
  /-- Source bytes read. -/
  reads : List Nat
  /-- Destination bytes written. -/
  writes : List Nat
deriving DecidableEq, Repr

/-- R346, R348: the elements that MOVET copies: those inside slot D's extent. -/
def movetElems (d : Strm) (td : Int) : List (Nat × Nat) :=
  (pairs 0 32 0 32).filter fun e => !d.od.outside td e.1 e.2
/-- The MX blocks with an element inside the extent. -/
def movetBlocks (d : Strm) (td : Int) : List Nat :=
  if d.f.isMx then (movetElems d td).foldl (fun l e => nins l (d.od.block e.1 e.2)) [] else []

def movetStep (c : Nat) (a d : Strm) (ta td : Int) : MoveStep :=
  let es := movetElems d td
  let addrs (st : Strm) (t : Int) : List Nat :=
    (es.flatMap fun e => elemAddrs st.f st.od.linear (st.tileDev c t 0) e.1 e.2) ++
    ((movetBlocks d td).map fun b => st.scaleDev c t b)
  ⟨addrs a ta, addrs d td⟩

def moverStep (c n : Nat) (a d : OpD) (ta td : Int) : MoveStep :=
  let addrs (o : OpD) (t : Int) : List Nat := (upto n).map (· + spaceAddr c o.space (o.tileAt t).toNat)
  ⟨addrs a ta, addrs d td⟩

/-- R398: the destination words of a tile that receive something of a poisoned source word. -/
def movetPoison (v : State) (c : Nat) (a d : Strm) (ta td : Int) (g : Staged) : Staged :=
  let sa := a.tileDev c ta 0
  let da := d.tileDev c td 0
  let g := (movetElems d td).foldl (fun g e =>
    if elemPoison v a.f a.od.linear sa e.1 e.2 then g.poison (elemAddrs d.f d.od.linear da e.1 e.2) else g) g
  (movetBlocks d td).foldl (fun g b =>
    if v.poison.contains (a.scaleDev c ta b / 4) then g.poison [d.scaleDev c td b] else g) g

/-- R346, R348: one tile, with its MX scale bytes, staged. -/
def movetTile (v : State) (c : Nat) (a d : Strm) (ta td : Int) (g : Staged) : Staged :=
  let m : State := { v with mem := g.mem }
  let sa := a.tileDev c ta 0
  let da := d.tileDev c td 0
  let g := (movetElems d td).foldl (fun g e =>
    g.elem d.f d.od.linear da e.1 e.2 (elemBits m a.f a.od.linear sa e.1 e.2)) g
  let g := (movetBlocks d td).foldl (fun g b => g.byte (d.scaleDev c td b) (tget 0 m.mem (a.scaleDev c ta b))) g
  movetPoison v c a d ta td g

/-- R346: RLEN bytes staged. -/
def moverRow (v : State) (st : MoveStep) (g : Staged) : Staged :=
  let bs := st.reads.map (tget 0 g.mem)
  let bad := (st.reads.zip st.writes).filter fun e => v.poison.contains (e.1 / 4)
  ((st.writes.zip bs).foldl (fun g e => g.byte e.1 e.2) g).poison (bad.map (·.2))

/-- The iterations of a Move staged one after the other; each has its own list of effects. -/
def moveStage (f : Nat → Staged → Staged) : List Nat → Staged → List (List Eff)
  | [], _ => []
  | k :: r, g =>
    let g' := f k g
    g'.eff :: moveStage f r g'.next

/-- R400: the check of one iteration's access, `acc` 1 a read and 2 a write, against the partition: it adds the addresses
whose access completes with an error. Log entry 27, DESIGN CHOICE. -/
def moveGuard (i : Iss) (acc : Nat) (p : List Nat × State) (as : List Nat) : List Nat × State :=
  let out := as.filter fun a => !granted p.2 i.x a 1
  let first := (out ++ as).headD 0
  let r := p.2.check 0x22 i.c [acc] first (fun _ => false) (if out.isEmpty then none else some acc)
  if r.1.isSome then
    ((if out.isEmpty then as else out).foldl nins p.1,
      partitionFault r.2.2 i.c i.x acc first (p.2.endpoint (0x80 + i.c)) r.2.1)
  else p
/-- A read that completes with an error delivers free bytes. -/
def freeReads (s : State) (as : List Nat) : State :=
  as.foldl (fun s a => { s with mem := tput 0 s.mem a (Config.freeByte s.freeIdx), freeIdx := s.freeIdx + 1 }) s
/-- Effects without the bytes of writes that complete with an error. -/
def Eff.without (no : List Nat) : Eff → Eff
  | .mem cells bad part => .mem (cells.filter fun e => !no.contains e.1) (bad.filter fun w => !no.contains (4 * w)) part
  | e => e

/-- The I/O die through which a die's traffic leaves (R585). -/
def iodOfDie (d : Nat) : Nat := d / 2

/-- R600, R604: a flit, a burst or a Move enters an I/O die's crossbar, or the mesh stops and bridges of the dies beside it, on
virtual channel `vc`. Whether a buffer there asserts XOFF for the scheduled channel, which is a violation, hangs on thresholds and rates
that the spec does not give: it is free. Log entry 46, DESIGN CHOICE. -/
def crossbarIn (s : State) (iod vc master : Nat) : State :=
  if vc != 0 then s
  else
    let xoff := s.freeBool
    let pr := xoff.2.probe 0x40 (24 + iod) [2] 0
    if xoff.1 || pr.1.isSome then
      (pr.2.bump R.SVIOLM).reportFrom .notice 0x40 (24 + iod) 2 .none 8 0 master pr.1.isSome
    else xoff.2

/-- R402, R604: a Move is scheduled traffic; it crosses the mesh unless it stays in its core's own local store. -/
def moveIn (s : State) (c : Nat) (as : List Nat) : State :=
  if as.all fun a => tierOf a == some (.ls c) then s else crossbarIn s (iodOfDie (dieOf c)) 0 (s.endpoint (0x80 + c))

/-- A Move starts: its reads are checked and looked up, its writes looked up, its effects staged (R311, R360). -/
def moveStart (s : State) (i : Iss) : State :=
  match i.od 0, i.od 3 with
  | some a, some d =>
    if i.empty then launch s i [] 0
    else
      let ks := upto (prod i.l.active)
      let ta (k : Nat) : Int := i.l.pos (i.slot 0) k
      let td (k : Nat) : Int := i.l.pos (i.slot 3) k
      let tile : Option (Strm × Strm) := if opOf i.w = 0 then
          match i.strm 0, i.strm 3 with | some x, some y => some (x, y) | _, _ => none
        else none
      let step (k : Nat) : MoveStep := match tile with
        | some (x, y) => movetStep i.c x y (ta k) (td k)
        | none => moverStep i.c (rlenOf i.w) a d (ta k) (td k)
      let gr := ks.foldl (fun p k => moveGuard i 1 p (step k).reads) ([], s)
      let gw := ks.foldl (fun p k => moveGuard i 2 p (step k).writes) ([], gr.2)
      let reads := ((ks.flatMap fun k => (step k).reads).foldl nins []).filter fun a => !gr.1.contains a
      let writes := ((ks.flatMap fun k => (step k).writes).foldl nins []).filter fun a => !gw.1.contains a
      let rd := devRead gw.2 (some i.x) (chintOf i.w) reads (s.endpoint (0x80 + i.c))
      let v := freeReads rd.1 gr.1
      let t := devTouch { rd.2 with freeIdx := v.freeIdx } (some i.x) (chintOf i.w) writes (s.endpoint (0x80 + i.c))
      let one (k : Nat) (g : Staged) : Staged := match tile with
        | some (x, y) => movetTile v i.c x y (ta k) (td k) g
        | none => moverRow v (step k) g
      launch (moveIn t i.c (reads ++ writes)) i ((moveStage one ks { mem := v.mem }).map fun l => l.map (Eff.without gw.1)) 0
  | _, _ => s

def execMovet (core : CoreId) (s : State) : Host.Outcome State Fault Refusal :=
  .next (issue s core 3 (isOp 3 0) moveSlots moveResv noHold moveChecks moveStart)
def execMover (core : CoreId) (s : State) : Host.Outcome State Fault Refusal :=
  .next (issue s core 3 (isOp 3 1) moveSlots moveResv noHold moveChecks moveStart)

/-! ## Transfer (R350 to R353) -/

def transferSlots (w : W128) : List Nat := if opOf w = 2 then [0] else [0, 3]
/-- R351: the fields of the other operations are reserved. -/
def transferResv (w : W128) : Nat :=
  match opOf w with
  | 0 => 2 ^ 36 - 1
  | 1 => 2 ^ 35 - 1
  | _ => 2 ^ 21 - 1
def wlenOf (w : W128) : Nat := wf w 36 8 + 1
def nwOf (w : W128) : Nat := wf w 39 5 + 1
def mqOf (w : W128) : Nat := wf w 35 4
def chOf (w : W128) : Nat := wf w 37 7
def nentOf (w : W128) : Nat := wf w 21 16 + 1

/-- R588: the endpoint lies in this module's own block. -/
def ownBlock (s : State) (ep : Nat) : Bool := ep / 256 == s.fget R.EPCFG_EPBASE
/-- R588: the core of a core endpoint of this module. -/
def ownCore (s : State) (ep : Nat) : Option Nat :=
  if ownBlock s ep && decide (128 ≤ ep % 256) then some (ep % 256 - 128) else none

/-- R352: the manifest names the endpoint: its block, or for this module's own block its module endpoint or a core the
manifest names. -/
def endpointNamed (s : State) (x : Ctx) (ep : Nat) : Bool :=
  endpointGranted s x ep ||
  (ownBlock s ep && (ep % 256 == 0 || match ownCore s ep with | some c => s.named x c | none => false))

/-- R352: a message's queue on this module is one of the context's own; another module's is not seen from here. -/
def queueNamed (s : State) (x : Ctx) (ep q : Nat) : Bool :=
  if ownBlock s ep then match ownCore s ep with | some c => mqOwner s c q == some x | none => false
  else true

/-- R488: an extent of the iterations crosses a 256-byte boundary. Positions enter only modulo 4 (a pitch is in units of
64 bytes). -/
def crosses (i : Iss) (o : OpD) (len : Nat) : Bool :=
  (upto (prod i.l.active)).any fun k =>
    let a := (o.tileAt (i.l.pos (i.slot 3) k)) % 256
    decide (a + len > 256)

def transferChecks (s : State) (i : Iss) : List (Nat × Bool) :=
  let op := opOf i.w
  if op = 2 then
    let n := chOf i.w
    let sig := (s.rd (R.DMASIG n)).toNat
    [ (0x21, decide (96 ≤ n)),
      (0x34, i.anyOd fun o => o.space == 2 || o.base % 16 != 0 || layoutBad o),
      (0x34, match i.od 0 with
        | some o => !spanGranted s i.c i.x o ((o.base : Int), (o.base : Int) + 16 * nentOf i.w - 1)
        | none => false),
      (0x35, i.ldOk && i.l.rmask != 0),
      (0x38, decide (n < 96) && !s.jhas i.x 0x38 n),
      (0x38, decide (n < 96) && (bitOf sig 31 || bitOf sig 30) && !ownsCtr s i.x (sig % 16384)) ]
  else
    let len := if op = 0 then wlenOf i.w else 8 * nwOf i.w
    [ (0x34, i.anyOd layoutBad),
      (0x34, match i.od 0 with | some o => o.space != 0 | none => false),
      (0x34, match i.od 3 with
        | some o => !(o.space == 2 || (o.space == 1 && op == 0)) || (o.space == 2 && decide (2 ^ 44 ≤ o.base))
        | none => false),
      (0x34, i.used.any fun u => u.2.1 && match Fmt.ofCode u.2.2.fmt with | some f => !placed u.2.2 f | none => false),
      (0x34, i.bytesBad s 0 len),
      (0x34, op == 0 && (i.bytesBad s 3 len || i.reachesHole 3 len false)),
      (0x34, op == 0 && !i.empty && match i.od 3 with | some o => crosses i o len | none => false),
      (0x35, i.ldOk && i.l.rmask != 0),
      (0x38, match i.od 3 with | some o => o.space == 2 && !endpointNamed s i.x o.endpoint | none => false),
      (0x38, op == 1 && match i.od 3 with | some o => !queueNamed s i.x o.endpoint (mqOf i.w) | none => false) ]

/-- R359: a DMAGO waits for a free shadow set; a channel fenced in service accepts no list. -/
def dmagoHold (s : State) (_ : Ctx) (w : W128) : Bool :=
  let n := chOf w
  decide (n < 96) && ((tget {} s.chans n).shadow.isSome || bitOf s.fenceChans n)

/-- The offsets of the bytes whose words are poisoned. -/
def badOffs (v : State) (as : List Nat) : List Nat :=
  (upto as.length).filter fun k => v.poison.contains (as.getD k 0 / 4)

/-- R350, R352: the store or message of an iteration. -/
def transferEff (v : State) (i : Iss) (a d : OpD) (k : Nat) : List Eff :=
  let n := if opOf i.w = 0 then wlenOf i.w else 8 * nwOf i.w
  let src := (upto n).map (· + spaceAddr i.c a.space (a.tileAt (i.l.pos (i.slot 0) k)).toNat)
  let bs := src.map (tget 0 v.mem)
  if opOf i.w = 0 then
    [.wstore (if d.space = 2 then some d.endpoint else none) (d.tileAt (i.l.pos (i.slot 3) k)).toNat bs (badOffs v src)]
  else
    [.wmsg d.endpoint (mqOf i.w) ((upto (nwOf i.w)).map fun j =>
      (ofLe ((bs.drop (8 * j)).take 8) % 2 ^ 62,
       ((src.drop (8 * j)).take 8).any fun b => v.poison.contains (b / 4)))]

def transferStart (s : State) (i : Iss) : State :=
  if opOf i.w = 2 then
    match i.od 0 with
    | some o => launch s i [[.dmago (chOf i.w) (spaceAddr i.c o.space o.base) (nentOf i.w)]] 0
    | none => s
  else
    match i.od 0, i.od 3 with
    | some a, some d =>
      if i.empty then launch s i [] 0
      else
        let n := if opOf i.w = 0 then wlenOf i.w else 8 * nwOf i.w
        let ks := upto (prod i.l.active)
        let reads := (ks.flatMap fun k =>
          (upto n).map (· + spaceAddr i.c a.space (a.tileAt (i.l.pos (i.slot 0) k)).toNat)).foldl nins []
        let rd := devRead s (some i.x) 0 reads (s.endpoint (0x80 + i.c))
        launch rd.2 i (ks.map (transferEff rd.1 i a d)) 0
    | _, _ => s

def execWstore (core : CoreId) (s : State) : Host.Outcome State Fault Refusal :=
  .next (issue s core 4 (isOp 4 0) transferSlots transferResv noHold transferChecks transferStart)
def execWmsg (core : CoreId) (s : State) : Host.Outcome State Fault Refusal :=
  .next (issue s core 4 (isOp 4 1) transferSlots transferResv noHold transferChecks transferStart)
def execDmago (core : CoreId) (s : State) : Host.Outcome State Fault Refusal :=
  .next (issue s core 4 (isOp 4 2) transferSlots transferResv dmagoHold transferChecks transferStart)

/-! ## Sync and Control (R354 to R358) -/

def noSlots (_ : W128) : List Nat := []
def ctrOf (w : W128) : Nat := wf w 32 14
def valOf (w : W128) : Nat := wf w 0 32

/-- R354, R356: the reserved bits of a Sync or Control word. -/
def syncResv (w : W128) : Nat :=
  if classOf w = 5 then
    match opOf w with
    | 0 => 2 ^ 52 - 1
    | 3 => (2 ^ 52 - 1) - (2 ^ 46 - 2 ^ 32) - (2 ^ 16 - 1)
    | _ => 2 ^ 52 - 2 ^ 46
  else
    match opOf w with
    | 1 => 2 ^ 52 - 2 ^ 19
    | _ => 2 ^ 52 - 1

def syncChecks (s : State) (i : Iss) : List (Nat × Bool) :=
  let op := opOf i.w
  if classOf i.w = 5 then
    [ (0x21, op == 3 && i.w.toNat % 65536 == 0),
      (0x31, op != 0 && !ownsCtr s i.x (ctrOf i.w)) ]
  else
    let win := wf i.w 16 3
    [ (0x21, op == 1 && decide (5 ≤ win)),
      (0x39, op == 1 && (match i.x with | .d => win != 0 | .t => win == 0)),
      (0x39, op == 1 && decide (win > s.fget R.RNDWIN_TWCNT + 1)) ]

/-- R354 to R358: what a Sync or Control instruction does when it retires. Log entry 80, DEDUCED. -/
def syncEff (w : W128) : List Eff :=
  if classOf w = 5 then
    match opOf w with
    | 1 => [.cadd (ctrOf w) (signedOf (valOf w) 32)]
    | 2 => [.cset (ctrOf w) (BitVec.ofNat 32 (valOf w))]
    | 3 => [.sbar (ctrOf w) (w.toNat % 65536)]
    | _ => []
  else if opOf w = 1 then [.wend (wf w 16 3) (w.toNat % 65536)]
  else []

def syncStart (s : State) (i : Iss) : State := launch s i [syncEff i.w] 0

def execSnop (core : CoreId) (s : State) : Host.Outcome State Fault Refusal :=
  .next (issue s core 5 (isOp 5 0) noSlots syncResv noHold syncChecks syncStart)
def execSadd (core : CoreId) (s : State) : Host.Outcome State Fault Refusal :=
  .next (issue s core 5 (isOp 5 1) noSlots syncResv noHold syncChecks syncStart)
def execSset (core : CoreId) (s : State) : Host.Outcome State Fault Refusal :=
  .next (issue s core 5 (isOp 5 2) noSlots syncResv noHold syncChecks syncStart)
def execSbar (core : CoreId) (s : State) : Host.Outcome State Fault Refusal :=
  .next (issue s core 5 (isOp 5 3) noSlots syncResv noHold syncChecks syncStart)
def execCnop (core : CoreId) (s : State) : Host.Outcome State Fault Refusal :=
  .next (issue s core 5 (isOp 6 0) noSlots syncResv noHold syncChecks syncStart)
/-- Log entry 70, DEDUCED. -/
def execWend (core : CoreId) (s : State) : Host.Outcome State Fault Refusal :=
  .next (issue s core 5 (isOp 6 1) noSlots syncResv noHold syncChecks syncStart)
def execCdrain (core : CoreId) (s : State) : Host.Outcome State Fault Refusal :=
  .next (issue s core 5 (isOp 6 2) noSlots syncResv noHold syncChecks syncStart)

end Sys2Proof.Machine
end

