-- ==== Sys2Proof/Machine/Access.lean ====
section
/-! DEFINITION. Sys2Proof/Machine/Access.lean: how an access of a requester reaches a register block (R699 to R706): stages,
access errors, and the frame of a write of a strobe or an enable bit. -/

namespace Sys2Proof.Machine

def reqNum : Req → Nat
  | .host => 0
  | .msp => 1
  | .debug => 2

/-- R732: the stage from which a block is reachable: 1 Base, 2 Upsett. -/
def stageNeed : Block → Nat
  | .host | .faultHub | .power | .security => 1
  | _ => 2
/-- R734: the last stage completed: 0 none, 1 Base, 2 Upsett, 3 Siding. -/
def State.stage (s : State) : Nat := if s.sec.base then s.fget R.STAGESTAT_STAGE else 0
/-- R706, R794: the block at an offset is reachable; after a Grave fault only the Base functions are. -/
def stageReached (s : State) (off : Nat) : Bool :=
  match locate off with
  | none => true
  | some p => decide (stageNeed p.kind ≤ s.stage) && (!s.grave || stageNeed p.kind == 1)

def blockNum (off : Nat) : Nat :=
  match locate off with
  | none => 0
  | some p => p.num

/-- R730: the first access error is recorded. -/
def regFirst (s : State) (req : Req) (off cause : Nat) : State :=
  if s.fbit R.REGFIRST_VALID then s
  else s.wr R.REGFIRST (BitVec.ofNat 32 (2 ^ 31 + cause * 2 ^ 28 + reqNum req * 2 ^ 26 + off % 2 ^ 26))

/-- R697, R699, R704 to R706: an access error of a cause is counted, recorded and reported. Log entry 11, DEDUCED. -/
def regError (s : State) (req : Req) (off cause : Nat) (inj : Bool) : State :=
  (regFirst (s.bump (if cause = 1 then R.REGTO else R.REGERRC)) req off cause).reportFrom .notice 0x03 (blockNum off) cause .none 9 0
    (s.endpoint 0) inj

/-- R689, R699, R705, R706, R806: an access that ends before its block acts on it, with what it leaves; none when it proceeds.
`part` tells of a write to an assigned offset whether a byte enable is clear, `late` that the access does not cross in time.
Log entry 11, DEDUCED. -/
def accessEnds (s : State) (req : Req) (off : Nat) (write : Bool) (part : Option Bool := none) (late : Bool := false) :
    Option State :=
  if req = .host && s.fbit R.HIFSTAT_D3 then some { s with reply := if write then s.reply else .unsupported }
  else
    let real := if !stageReached s off then some 3 else if late then some 1 else if part = some true then some 2 else none
    let r := s.check 0x03 (blockNum off) (if part.isSome then [1, 2, 3] else [1, 3]) off (fun _ => true) real
    match r.1 with
    | none => none
    | some k =>
      let t := regError r.2.2 req off k r.2.1
      some (if write then t else { t with reply := .abort })

/-- A write of 1 to a strobe, or a write of an enable bit, by a requester: `f` is what it does. -/
def strobe (s : State) (req : Req) (off : Nat) (f : State → State) : Host.Outcome State Fault Refusal :=
  .next (match accessEnds s req off true (some false) with
    | some s' => s'
    | none => f s)

/-- A write to an enable bit (R718, R719). -/
def enable (s : State) (req : Req) (f : Fld) (on : Bool) : Host.Outcome State Fault Refusal :=
  strobe s req f.off fun s => s.fset f (if on then 1 else 0)

/-- R704: a write attempted on a locked field. Log entry 12, DEDUCED. -/
def lockRefused (s : State) (req : Req) (off : Nat) (inj : Bool := false) : State :=
  (regFirst (s.bump R.LOCKREF) req off 4).reportFrom .notice 0x02 (blockNum off) 2 .none 9 0 (s.endpoint 0) inj

/-- R17: the Notice of a write of a reserved encoding. -/
def reservedWritten (s : State) (off : Nat) (inj : Bool := false) : State :=
  s.reportFrom .notice 0x01 (blockNum off) 0 .none 9 0 (s.endpoint 0) inj
/-- R17, R806: the check whether a write carries a reserved encoding, which leaves the field unchanged. -/
def encGate (s : State) (off : Nat) (bad : Bool) (yes : State → State) : State :=
  let r := s.check 0x01 (blockNum off) [0] 0 (fun _ => true) (if bad then some 0 else none)
  if r.1.isSome then reservedWritten r.2.2 off r.2.1 else yes r.2.2
/-- The check whether a write meets a lock that is set. -/
def lockGate (s : State) (req : Req) (off : Nat) (bad : Bool) (yes : State → State) : State :=
  let r := s.check 0x02 (blockNum off) [2] 0 (fun _ => true) (if bad then some 2 else none)
  if r.1.isSome then lockRefused r.2.2 req off r.2.1 else yes r.2.2
/-- R804: the check whether a write meets the closed test lock. -/
def testGate (s : State) (no yes : State → State) : State :=
  let r := s.check 0x02 11 [2] 0 (fun _ => true) (if s.fbit R.TLCTL_OPEN then none else some 2)
  if r.1.isSome then no (r.2.2.reportFrom .notice 0x02 11 2 .none 9 0 (s.endpoint 0) r.2.1) else yes r.2.2

/-- R723: a change refused while a job is loaded, with the block's BUSYREF bit. Log entry 84, DEDUCED. -/
def busyRefused (s : State) (f : Fld) (inj : Bool := false) : State := (s.fset f 1).refusal (blockNum f.off) inj

end Sys2Proof.Machine
end

