-- ==== Sys2Proof/Machine/Control.lean ====
section
/-! DEFINITION. Sys2Proof/Machine/Control.lean: the control registers of the units of a core (R193 to R204, R246 to R252,
R286 to R300, R366), and the event counters' clears. -/

namespace Sys2Proof.Machine

/-! ## Weave engine and vector unit -/

/-- R757: the units of a core that a self-test fenced keep ENABLE at 0. -/
def mayEnable (s : State) (c : Nat) (on : Bool) : Bool := on && !s.fencedTest c
/-- R188, R193: ENABLE of an engine; set from STOPPED, its next instruction enters RAMPUP. -/
def wvEnable (s : State) (c e : Nat) (on : Bool) : State :=
  let on := mayEnable s c on
  let stopped := !s.fbit (R.WVCTL_ENABLE c e) && !busy s c e
  let s' := s.fset (R.WVCTL_ENABLE c e) (if on then 1 else 0)
  if on && stopped then setPwr s' c e (pwrWord s' c e % 2 ^ 31 + 2 ^ 31) else s'

def execWvctlEnable (req : Req) (core : CoreId) (eng : EngId) (on : Bool) (s : State) : Host.Outcome State Fault Refusal :=
  strobe s req (R.WVCTL core eng) fun s => wvEnable s core eng on
/-- R194: queued instructions of both contexts are discarded. -/
def abortQueue (s : State) (c q : Nat) : State := discardQueue (discardQueue s c .d q) c .t q
def execWvctlAbort (req : Req) (core : CoreId) (eng : EngId) (s : State) : Host.Outcome State Fault Refusal :=
  strobe s req (R.WVCTL core eng) fun s => abortQueue s core eng
def execWvctlClrcnt (req : Req) (core : CoreId) (eng : EngId) (s : State) : Host.Outcome State Fault Refusal :=
  strobe s req (R.WVCTL core eng) fun s => s.clear [R.WVDISC core eng, R.WVDUMCNT core eng, R.WVRUPCNT core eng]
def execWvcfgLock (req : Req) (core : CoreId) (eng : EngId) (s : State) : Host.Outcome State Fault Refusal :=
  strobe s req (R.WVCFG core eng) fun s => s.fset (R.WVCFG_LOCK core eng) 1
/-- R198, R199: a read of a debug-window data register. -/
def execWvdbgdatRead (req : Req) (core : CoreId) (col : XReg) (s : State) : Host.Outcome State Fault Refusal :=
  .next (match accessEnds s req (R.WVDBGDAT core col) false with
    | some s' => s'
    | none =>
      let r := wvdbgdat s core col
      { r.2 with reply := .data (leBytes 4 r.1.toNat) })

def execVuctlEnable (req : Req) (core : CoreId) (on : Bool) (s : State) : Host.Outcome State Fault Refusal :=
  enable s req (R.VUCTL_ENABLE core) (mayEnable s core on)
def execVuctlAbort (req : Req) (core : CoreId) (s : State) : Host.Outcome State Fault Refusal :=
  strobe s req (R.VUCTL core) fun s => abortQueue s core 2
def execVuctlClrcnt (req : Req) (core : CoreId) (s : State) : Host.Outcome State Fault Refusal :=
  strobe s req (R.VUCTL core) fun s => s.clear [R.VUDISC core, R.VUCRVBAD core]

/-! ## Control processor -/

/-- A blocking instruction is abandoned; it runs again later (R287, R289). -/
def abandonStall (s : State) (c : Nat) (x : Ctx) : State :=
  let s := fbWithdraw s c (s.cc c x).stall
  let h := s.cc c x
  s.setCc c x { h with stall := .none, waits := tdel h.waits 6 }

/-- R289: ENABLE of both harts. -/
def cpEnable (s : State) (c : Nat) (on : Bool) : State :=
  let on := mayEnable s c on
  let s := s.fset (R.CPCTL_ENABLE c) (if on then 1 else 0)
  if on then s else abandonStall (abandonStall s c .d) c .t

/-- R287: a halt request of the host or the MSP, refused without debug mode. Log entry 78, DEDUCED. -/
def debugGate (s : State) (c : Nat) (yes : State → State) : State :=
  let r := s.check 0x0A c [2] 0 (fun _ => true) (if s.fbit (R.CPCTL_DBGEN c) then none else some 2)
  if r.1.isSome then r.2.2.reportFrom .notice 0x0A c 2 .none 9 0 (s.endpoint 0) r.2.1 else yes r.2.2
def cpHalt (s : State) (c : Nat) (x : Ctx) : State :=
  debugGate s c fun s =>
  if !s.loaded x || !s.named x c || (s.cc c x).hst == .halted || (s.cc c x).hst == .notLoaded then s
  else halt s c x 0x0D 7 0 0 0

/-- R286: a halted context resumes; an entry that halted it is discarded, without signal. Log entry 78, DEDUCED. -/
def cpResume (s : State) (c : Nat) (x : Ctx) : State :=
  debugGate s c fun s =>
  if (s.cc c x).hst != .halted then s
  else
    let w := (s.rd (match x with | .d => R.CPHALTD c | .t => R.CPHALTT c)).toNat
    let src := bitsOf w 21 3
    -- an instruction over time has left its queue already
    let s := if 1 ≤ src && src ≤ 6 && bitsOf w 24 8 != 0x40 && !(s.queue c x (src - 1)).isEmpty
      then dropHead s c x (src - 1) else s
    let h := s.cc c x
    s.setCc c x { h with
      hst := if (s.job x).elim false (·.started) then .running else .waiting, issueHalt := false }

/-- R287: a single step of a halted hart; issue stays stopped. A hart with ENABLE 0, on a core fenced in service or in a
stopped device, executes nothing (R289, R788, R798). Log entry 78, DEDUCED. -/
def cpStep (s : State) (c : Nat) (x : Ctx) : State :=
  debugGate s c fun s =>
  if (s.cc c x).hst != .halted || !s.loaded x || s.stopped || s.fencedSv c || !s.fbit (R.CPCTL_ENABLE c) then s
  else
    let h := s.cc c x
    hartStep (s.setCc c x { h with hst := .running, stepping := true }) c x

def execCpctlEnable (req : Req) (core : CoreId) (on : Bool) (s : State) : Host.Outcome State Fault Refusal :=
  strobe s req (R.CPCTL core) fun s => cpEnable s core on
def execCpctlHalt (req : Req) (core : CoreId) (ctx : Ctx) (s : State) : Host.Outcome State Fault Refusal :=
  strobe s req (R.CPCTL core) fun s => cpHalt s core ctx
def execCpctlResume (req : Req) (core : CoreId) (ctx : Ctx) (s : State) : Host.Outcome State Fault Refusal :=
  strobe s req (R.CPCTL core) fun s => cpResume s core ctx
def execCpctlStep (req : Req) (core : CoreId) (ctx : Ctx) (s : State) : Host.Outcome State Fault Refusal :=
  strobe s req (R.CPCTL core) fun s => cpStep s core ctx
def execCpctlAbort (req : Req) (core : CoreId) (ctx : Ctx) (s : State) : Host.Outcome State Fault Refusal :=
  strobe s req (R.CPCTL core) fun s => discardAll s core ctx
def execCpctlClrcnt (req : Req) (core : CoreId) (s : State) : Host.Outcome State Fault Refusal :=
  strobe s req (R.CPCTL core) fun s => s.clear [R.CQOVFD core, R.CQOVFT core]
def execCpctlDbglock (req : Req) (core : CoreId) (s : State) : Host.Outcome State Fault Refusal :=
  strobe s req (R.CPCTL core) fun s => s.fset (R.CPCTL_DBGLOCK core) 1
def execCictlClrcnt (req : Req) (core : CoreId) (s : State) : Host.Outcome State Fault Refusal :=
  strobe s req (R.CICTL core) fun s => s.clear [R.DESCWRD core, R.DESCWRT core, R.WENDXD core, R.WENDXT core]

/-! ## Event counters of other blocks -/

def execMqctlClrcnt (req : Req) (core : CoreId) (s : State) : Host.Outcome State Fault Refusal :=
  strobe s req (R.MQCTL core) fun s =>
    s.clear [R.MQDROPD core, R.MQDROPT core, R.MQDROPN core, R.MQPOIS core, R.MQCORR core]
def execWyctlClrcnt (req : Req) (core : CoreId) (s : State) : Host.Outcome State Fault Refusal :=
  strobe s req (R.WYCTL core) fun s => s.clear [R.WYERRD core, R.WYERRT core]
def execSnctlClrcnt (req : Req) (die : DieId) (s : State) : Host.Outcome State Fault Refusal :=
  strobe s req (R.SNCTL die) fun s =>
    s.clear [R.SNUNDER die, R.SNOVER die, R.SNSAT die, R.SNBARERR die, R.SNTOCNT die, R.SNORPH die]
def execScctlClrcnt (req : Req) (region : RegionId) (s : State) : Host.Outcome State Fault Refusal :=
  strobe s req (R.SCCTL region) fun s =>
    s.clear [R.SCHIT region, R.SCMISS region, R.SCMERGE region, R.SCRETFULL region]
def execMemctlClrcnt (req : Req) (s : State) : Host.Outcome State Fault Refusal :=
  strobe s req R.MEMCTL fun s =>
    s.clear ([0, 1, 2, 3].map R.MEMCOR ++ [0, 1, 2, 3].map R.MEMUNC ++ [R.INWREF])
def execDmactlClrcnt (req : Req) (ch : ChanId) (s : State) : Host.Outcome State Fault Refusal :=
  strobe s req (R.DMACTL ch) fun s => s.clear [R.DMADISC ch, R.DMAERRC ch]
def execArbcfgClrcnt (req : Req) (port : ArbId) (s : State) : Host.Outcome State Fault Refusal :=
  strobe s req (R.ARBCFG port) fun s => s.clear [R.ARBGRANT port, R.ARBWASTE port, R.ARBREVOKE port]
def execStepctlClrcnt (req : Req) (s : State) : Host.Outcome State Fault Refusal :=
  strobe s req R.STEPCTL fun s => s.clear [R.STSKIPNF, R.STSKIPVS, R.LSFLOOR, R.NFSTRAY, R.SSWMIS]
def execRtctlClrcnt (req : Req) (s : State) : Host.Outcome State Fault Refusal :=
  strobe s req R.RTCTL fun s => s.clear [R.RTMISS, R.RTDOWN, R.EPSTALE, R.BADFLIT, R.RSPLATE, R.SVIOLM]
def execLnkctlClrcnt (req : Req) (port : PortId) (s : State) : Host.Outcome State Fault Refusal :=
  strobe s req (R.LNKCTL port) fun s =>
    s.clear [R.FECCOR port, R.FECUNC port, R.HDRCRC port, R.REPLAY port, R.FCDROP port, R.SVIOL port, R.TRNFAIL port]
def execColctlClrcnt (req : Req) (s : State) : Host.Outcome State Fault Refusal :=
  strobe s req R.COLCTL fun s =>
    s.clear [R.REDMISS, R.REDLATE, R.REDLATEC, R.REDEARLY, R.REDDUP, R.REDSLOTW, R.REDSHORT, R.REDEMPTY, R.RETDONE,
             R.RETSTALE, R.COLDISC]
def execRegctlClrcnt (req : Req) (s : State) : Host.Outcome State Fault Refusal :=
  strobe s req R.REGCTL fun s => s.clear [R.REGTO, R.REGERRC, R.LOCKREF]
def execEpcfgLock (req : Req) (s : State) : Host.Outcome State Fault Refusal :=
  strobe s req R.EPCFG fun s => s.fset R.EPCFG_LOCK 1
/-- R686. -/
def execIdlctlClear (req : Req) (core : CoreId) (ctx : Ctx) (s : State) : Host.Outcome State Fault Refusal :=
  strobe s req (R.IDLCTL core) fun s => s.setCc core ctx { s.cc core ctx with idle := [] }

/-- R497: ARBSEED loads the LFSR, 0 as 1. -/
def execArbseedWrite (req : Req) (port : ArbId) (val : W32) (s : State) : Host.Outcome State Fault Refusal :=
  strobe s req (R.ARBSEED port) fun s => s.wr (R.ARBSEED port) (if val = 0 then 1 else val)

end Sys2Proof.Machine
end

