-- ==== Sys2Proof/Machine/Memory.lean ====
section
/-! DEFINITION. Sys2Proof/Machine/Memory.lean: events of the memory tiers (R379 to R399, R407, R410), the host's BAR2 window
(R392, R691), withy deliveries inside the module (R489, R490), and a host write of a sync counter (R461). -/

namespace Sys2Proof.Machine

/-! ## Shared cache -/

def execCacheFillComplete (region : RegionId) (line : Nat) (s : State) : Host.Outcome State Fault Refusal :=
  ifAlive s (if line < stackBase 1 / 256 then fillComplete s (region * (stackBase 1 / 256) + line) else s)

/-- R399: pinned lines that are invalidated: HBM's own bytes, which the line held instead, are unspecified.
Log entry 33, DEDUCED. -/
def forget (s : State) (num : Nat) : State :=
  let r := s.freeBytes 256
  r.2.st (num * 256) r.1

/-- Lines that satisfy `p` are written back and leave their caches (R382, R410). -/
def dropLines (s : State) (p : Line → Bool) : State :=
  let s := (s.cache.flatMap (·.2)).foldl (fun s l => if p l && l.pinned then forget s l.num else s) s
  { s with cache := s.cache.filterMap fun e =>
      let l := e.2.filter fun l => !p l
      if l.isEmpty then none else some (e.1, l) }

/-- Retained marks of a context in a region are released (R382). -/
def releaseMarks (s : State) (r : Nat) (x : Ctx) : State :=
  { s with cache := s.cache.map fun e =>
      if e.1 / 65536 = r then (e.1, e.2.map fun l => if l.ctx = x then { l with retained := false } else l) else e }

def execScctlRelease (req : Req) (region : RegionId) (ctx : Ctx) (s : State) : Host.Outcome State Fault Refusal :=
  strobe s req (R.SCCTL region) fun s => releaseMarks s region ctx
def execScctlFlush (req : Req) (region : RegionId) (s : State) : Host.Outcome State Fault Refusal :=
  strobe s req (R.SCCTL region) fun s =>
    s.gate (16 + region) s.anyJob (fun inj s => s.refusal (16 + region) inj) fun s =>
      dropLines s fun l => lineRegion l.num == region

/-! ## Scrubbing (R396 to R399) -/

/-- The address is a word of a local store or of a shared cache of the die. Log entry 34, DESIGN CHOICE. -/
def scrubbed (s : State) (die a : Nat) : Bool :=
  match tierOf a with
  | some (.ls c) => dieOf c == die
  | some (.hbm k) => k / 2 == die && s.cached (a / 256)
  | _ => false

/-- What the scrubber does about a word: 1 corrected and rewritten, 2 uncorrectable (R399, R801: storage causes, also where
the word's clean line is only refetched). Log entry 6, DESIGN CHOICE; 34, DESIGN CHOICE. -/
def scrubWord (s : State) (die a found : Nat) (inj : Bool) : State :=
  let own := ownerOf s a
  let s' := s.bump (R.MEMUNC die)
  if found = 1 then
    (s.bump (R.MEMCOR die)).reportFrom .corrected 0x19 die 1 (optParty own) 0xA a (s.endpoint 0) inj
  else if found = 2 then
    let rep (s : State) (c : Cls) (cause : Nat) : State :=
      s.reportFrom c 0x19 die cause (optParty own) 0xA a (s.endpoint 0) inj
    match (if isHbm a then s.line? (a / 256) else none) with
    | some l =>
      if l.dirty then pinLine (rep s' (if own.isNone then .notice else .contained) 2) l.num
      else
        let s := rep s' .corrected 2
        s.setLines l.num ((s.lines l.num).filter (·.num != l.num))
    | none =>
      let s := rep s' (if own.isNone then .notice else .contained) 2
      { s with poison := nins s.poison (a / 4) }
  else s

/-- R397: the next word of the patrol; `found` tells what its SECDED shows: 0 nothing, 1 one bit, 2 two bits. -/
def execScrubPatrol (die : DieId) (addr : Nat) (found : Nat) (s : State) : Host.Outcome State Fault Refusal :=
  .next (if s.grave || s.stage < 2 || s.fget R.MEMCTL_SCRBPER = 0 || !scrubbed s die addr then s
    else
      let a := addr / 4 * 4
      let pr := s.probe 0x19 die [1, 2] a
      match pr.1 with
      | some k => scrubWord pr.2 die a (if s.poison.contains (a / 4) then 2 else max k found) true
      | none => scrubWord s die a (if s.poison.contains (a / 4) then 2 else found) false)

/-- R396: the oldest queued address is rewritten. -/
def execScrubRewrite (die : DieId) (s : State) : Host.Outcome State Fault Refusal :=
  ifAlive s ({ s with rewrites := tput [] s.rewrites die (tget [] s.rewrites die).tail })

/-! ## CXL root ports (R387 to R390) -/

/-- The context's partition uses a root port. -/
def usesCxl (s : State) (x : Ctx) (p : Nat) : Bool := s.loaded x && decide ((cxlPart s p x).2 > 0)

/-- R387, R388, R390: the port reports up; a port in a loaded context's partition is not retrained.
Log entry 35, DESIGN CHOICE. -/
def execCxlLinkUp (port : RootId) (gen width : Fin 4) (capg : Fin 4096) (s : State) : Host.Outcome State Fault Refusal :=
  ifAlive s (if s.stage < 2 || gen = 0 || gen = 3 || width = 0 || s.fget (R.CXLSTAT_STATE port) = 3 then s
    else s.gate 2 (usesCxl s .d port || usesCxl s .t port) (fun inj s => busyRefused s (R.CXLSTAT_BUSYREF port) inj) fun s =>
      let s := (s.fset (R.CXLSTAT_STATE port) 2).fset (R.CXLSTAT_GEN port) gen
      (s.fset (R.CXLSTAT_WIDTH port) width).fset (R.CXLSTAT_CAPG port) (min capg 2048))

/-- R390: a link failure. Log entry 35, DESIGN CHOICE. -/
def cxlFail (s : State) (p : Nat) (inj : Bool) : State :=
  let s := s.fset (R.CXLSTAT_STATE p) 3
  [Ctx.d, Ctx.t].foldl (fun s x =>
    if usesCxl s x p then s.reportFrom .contained 0x21 p 2 (ctxParty x) 0 0 (s.endpoint 0) inj else s) s
def execCxlLinkFailure (port : RootId) (s : State) : Host.Outcome State Fault Refusal :=
  ifAlive s (if s.fget (R.CXLSTAT_STATE port) = 0 then s else
      let pr := s.probe 0x21 port [2] 0
      cxlFail pr.2 port pr.1.isSome)

/-! ## BAR2 (R392, R691) -/

def bar2Addr (s : State) (off : Nat) : Nat := s.fget R.BAR2WIN_BASE * 0x40000000 + off
/-- R690: the size of BAR2, 64 GiB at reset. -/
def bar2Size (s : State) : Nat := 2 ^ (30 + (tget (6 : W32) s.cfgRegs 0x1000).toNat)
/-- R392, R689 to R691: the access lands in the window and in HBM. -/
def bar2Ok (s : State) (off len : Nat) : Bool :=
  !s.fbit R.HIFSTAT_D3 && decide (off + len ≤ bar2Size s) && decide (2 ≤ s.stage) && !s.grave && decide (bar2Addr s off + len ≤ 0x6000000000)

/-- Log entry 36, DEDUCED. -/
def execBar2Read (off len : Nat) (s : State) : Host.Outcome State Fault Refusal :=
  .next (if !bar2Ok s off len then { s with reply := .unsupported }
    else
      let as := (upto len).map (· + bar2Addr s off)
      let r := devRead s none 0 as (s.endpoint 0)
      { r.2 with reply := .data (as.map (tget 0 r.1.mem)) })
/-- A posted write that BAR2 does not accept is dropped. Log entry 36, DEDUCED. -/
def execBar2Write (off : Nat) (data : List (Option Byte)) (s : State) : Host.Outcome State Fault Refusal :=
  .next (if !bar2Ok s off data.length then s
    else
      let cells := ((upto data.length).zip data).filterMap fun e => e.2.map fun b => (bar2Addr s off + e.1, b)
      devWrite (devTouch s none 0 (cells.map (·.1)) (s.endpoint 0)) cells [])

/-! ## Sync counters by register (R461) -/

def execScntvalWrite (req : Req) (ctr : CtrId) (val : W32) (s : State) : Host.Outcome State Fault Refusal :=
  strobe s req (R.SCNTVAL (ctrDie ctr) (ctr % 4096)) fun s =>
    s.gate (12 + ctrDie ctr) (s.ctr ctr).owner.isSome (fun inj s => s.refusal (12 + ctrDie ctr) inj) fun s =>
      s.setCtr ctr ((s.ctr ctr).set val)

/-! ## The sequencer's test of a local store (R407) -/

/-- R401: the core's slot of the sequencer area. -/
def seqSlot (c : Nat) : Nat := stackBase (c / 16) + 0xBD0000000 + c % 16 * 0x3000000

/-- A copy of the bytes and poison of one range over another. -/
def copyRange (s : State) (src dst n : Nat) : State :=
  let inR (b a : Nat) : Bool := decide (b ≤ a) && decide (a < b + n)
  let cells := s.mem.filter fun e => inR src e.1
  let bad := s.poison.filter fun w => inR src (4 * w)
  let m := s.mem.filter fun e => !inR dst e.1
  let p := s.poison.filter fun w => !inR dst (4 * w)
  { s with
    mem := cells.foldl (fun m e => tput 0 m (e.1 - src + dst) e.2) m
    poison := bad.foldl (fun p w => nins p ((4 * w - src + dst) / 4)) p }

def execCoreTestRequest (core : CoreId) (s : State) : Host.Outcome State Fault Refusal :=
  ifAlive s (if s.fbit R.TLCTL_OPEN && !s.anyJob && decide (2 ≤ s.stage) then
      copyRange s (lsBase core) (seqSlot core) 0x3000000
    else s)

end Sys2Proof.Machine
end

