-- ==== Sys2Proof/Machine/Channels.lean ====
section
/-! DEFINITION. Sys2Proof/Machine/Channels.lean: MSI-X messages (R698), and what happens to a DMA list (R474 to R485): its
events, its errors, the completion of its bursts, its end. -/

namespace Sys2Proof.Machine

/-! ## MSI-X -/

/-- A word of a vector's table entry; a vector is masked after reset. Log entry 42, PRESUMED. -/
def msixWord (s : State) (v k : Nat) : W32 := tget (if k = 3 then 1 else 0) s.msixTab (4 * v + k)
def setMsixWord (s : State) (v k : Nat) (w : W32) : State :=
  { s with msixTab := tput (if k = 3 then 1 else 0) s.msixTab (4 * v + k) w }
/-- R689, R698: a message of the vector can be sent now. Log entry 42, PRESUMED. -/
def msixFree (s : State) (v : Nat) : Bool :=
  s.msixOn && !s.msixMask && (msixWord s v 3).toNat % 2 == 0 && s.fbit R.HIFSTAT_BME && !s.fbit R.HIFSTAT_D3
def msixEmit (s : State) (v : Nat) : State :=
  s.emit (.msix v ((msixWord s v 0).toNat + (msixWord s v 1).toNat * 2 ^ 32) (msixWord s v 2))
/-- R698: an event sends its vector once; otherwise one pending bit remains. -/
def sendMsix (s : State) (v : Nat) : State :=
  if msixFree s v then msixEmit s v else { s with msixPend := nins s.msixPend v }
/-- A pending vector that can be sent is sent. -/
def msixRelease (s : State) (v : Nat) : State :=
  if s.msixPend.contains v && msixFree s v then msixEmit { s with msixPend := ndel s.msixPend v } v else s
/-- R689, R698: what held messages back for the whole function may have ended. -/
def msixReleaseAll (s : State) : State := s.msixPend.foldl msixRelease s

/-! ## Channels -/

def State.chan (s : State) (n : Nat) : Chan := tget {} s.chans n
def State.setChan (s : State) (n : Nat) (c : Chan) : State := { s with chans := tput {} s.chans n c }
/-- R467: the context that holds a channel; none is host software. -/
def chanOwner (s : State) (n : Nat) : Option Ctx :=
  if s.jhas .d 0x38 n then some .d else if s.jhas .t 0x38 n then some .t else none
/-- R484: the party of a channel. -/
def chanParty (s : State) (n : Nat) : Party :=
  match chanOwner s n with
  | some x => ctxParty x
  | none => .host

/-- A remote address (R370). -/
def remoteEp (a : Nat) : Nat := a / 2 ^ 44
def remoteDev (a : Nat) : Nat := a % 2 ^ 44
/-- An extent that names this module's own endpoint lies in its memory. -/
def Extent.home (s : State) (e : Extent) : Extent :=
  if e.remote && ownBlock s (remoteEp e.addr) && remoteEp e.addr % 256 == 0 then
    { e with addr := remoteDev e.addr, remote := false }
  else e
/-- R480: the bytes that two extents of this module's memory share are unspecified. -/
def blurPair (s : State) (a b : Extent) : State :=
  let a := a.home s
  let b := b.home s
  let lo := max a.addr b.addr
  let hi := min (a.addr + a.len) (b.addr + b.len)
  if a.remote || b.remote || hi ≤ lo then s
  else
    let r := s.freeBytes (hi - lo)
    devWrite r.2 (cellsAt lo r.1) []
/-- R480: source and destination bytes of a list that overlap. Log entry 38, DESIGN CHOICE. -/
def blurOverlap (s : State) (r : DmaRun) : State :=
  if r.moved = 0 then s
  else r.allDsts.foldl (fun s d => r.allSrcs.foldl (fun s a => blurPair s a d) s) s

/-- R480: the overlapped bytes of a burst under way, of a list that has ended, are unspecified too. -/
def blurBurst (srcs : List Extent) (p : State × List Burst) (b : Burst) : State × List Burst :=
  let hit (k : Nat) : Bool := !b.ext.remote && srcs.any fun e =>
    let e := e.home p.1
    !e.remote && decide (e.addr ≤ b.ext.addr + b.off + k) && decide (b.ext.addr + b.off + k < e.addr + e.len)
  let r := p.1.freeBytes b.bytes.length
  if (upto b.bytes.length).any hit then
    (r.2, p.2 ++ [{ b with bytes := (upto b.bytes.length).map fun k => (if hit k then r.1 else b.bytes).getD k 0 }])
  else (p.1, p.2 ++ [b])
/-- A list ends before its bursts do: they fly on. Log entry 38, DESIGN CHOICE. -/
def flyOn (s : State) (n : Nat) (r : DmaRun) : State :=
  let q := r.bursts.foldl (blurBurst r.allSrcs) (s, [])
  let c := q.1.chan n
  blurOverlap (q.1.setChan n { c with cur := none, flying := c.flying ++ q.2 }) r

/-- R482: the half or full event: status, signal, interrupt. -/
def dmaEvent (s : State) (n : Nat) (r : DmaRun) (full : Bool) : State :=
  let s := s.fset (if full then R.DMASTAT_FULL n else R.DMASTAT_HALF n) 1
  let g := r.sig.toNat
  let s := if bitOf g (if full then 31 else 30) then ctrAdd s (g % 16384) (signedOf (bitsOf g 16 4) 4) (s.endpoint 0) else s
  if bitOf r.cfg.toNat (if full then 13 else 12) then sendMsix s (r.cfg.toNat % 2048) else s

/-- R484: a list ends with an error; its issued bursts complete. Log entry 20, DEDUCED. -/
def dmaError (s : State) (n code addr : Nat) (inj : Bool) : State :=
  let c := s.chan n
  match c.cur with
  | none => s
  | some r =>
    let s := flyOn s n r
    let s := ((s.fset (R.DMASTAT_ERRCODE n) code).fset (R.DMASTAT_ERR n) 1).bump (R.DMAERRC n)
    let s := s.reportFrom .contained 0x30 n code (chanParty s n) 0 addr (s.endpoint 0) inj
    if bitOf r.cfg.toNat 14 then sendMsix s (r.cfg.toNat % 2048) else s

/-- R484, R786, R806: the check of a channel for one of `codes`: `code` is the error that it has met, by an access to the
device address `addr`, 0 where no access failed. -/
def dmaCheck (s : State) (n : Nat) (codes : List Nat) (code : Option Nat) (addr : Nat) (ok : State → State) : State :=
  let r := s.check 0x30 n codes addr (fun _ => false) code
  match r.1 with
  | some k => dmaError r.2.2 n k addr r.2.1
  | none => ok r.2.2

/-- Source bytes and destination bytes of the extents read that are still to be moved. -/
def extentSum : List Extent → Nat
  | [] => 0
  | e :: r => e.len + extentSum r
def DmaRun.srcLeft (r : DmaRun) : Nat :=
  extentSum r.srcs - r.srcPos + r.inbuf.length + (if r.readReq.isSome then r.readKeep else 0)
def DmaRun.dstLeft (r : DmaRun) : Nat := extentSum r.dsts - r.dstPos

/-- R474, R475, R482: the end of a list, when every entry is read, no burst is outstanding and no byte is left to move. -/
def dmaFinish (s : State) (n : Nat) : State :=
  let c := s.chan n
  match c.cur with
  | none => s
  | some r =>
    if r.fetched < r.list.nent || !r.bursts.isEmpty || r.readReq.isSome ||
       (r.moved < r.total && 0 < r.srcLeft && 0 < r.dstLeft) then s
    else dmaCheck s n [3] (if r.srcTotal != r.total || r.dstTotal != r.total then some 3 else none) 0 fun s =>
      let s := if r.half then s else dmaEvent s n r false
      let s := dmaEvent s n r true
      blurOverlap (s.setChan n { s.chan n with cur := none }) r

/-- R481, R482: bytes of the list in the register set have completed. -/
def dmaDone (s : State) (n len : Nat) : State :=
  let c := s.chan n
  match c.cur with
  | none => s
  | some r =>
    let r' := { r with done := r.done + len }
    let reach := !r'.half && decide (0 < r'.total) && decide (cdiv r'.total 2 ≤ r'.done)
    let s := s.setChan n { c with cur := some { r' with half := r'.half || reach } }
    let s := if reach then dmaEvent s n r' false else s
    dmaFinish s n

/-- The first burst that satisfies `p`, and the rest. -/
def takeBurst (p : Burst → Bool) : List Burst → Option (Burst × List Burst)
  | [] => none
  | b :: r =>
    if p b then some (b, r)
    else
      match takeBurst p r with
      | none => none
      | some (x, t) => some (x, b :: t)

/-- A burst satisfying `p` completes: of an aborted list without any effect on events, else of the list in progress. A write
that its storage does not accept ends the list (R481, R484). Log entry 38, DESIGN CHOICE. -/
def burstDone (s : State) (n : Nat) (p : Burst → Bool) (write : Bool) : State :=
  let c := s.chan n
  let taken (b : Burst) : Bool :=
    !write || (serves s (b.ext.addr + b.off) && serves s (b.ext.addr + b.off + b.bytes.length - 1))
  let put (s : State) (b : Burst) : State :=
    if write && taken b then
      let a := b.ext.addr + b.off
      let as := (upto b.bytes.length).map (· + a)
      devWrite (devTouch s (chanOwner s n) b.ext.chint as (s.endpoint 0) (128 + n)) (cellsAt a b.bytes) (badWords a b.bad)
    else s
  match takeBurst p c.flying with
  | some (b, rest) => put (s.setChan n { c with flying := rest }) b
  | none =>
    match c.cur with
    | none => s
    | some r =>
      match takeBurst p r.bursts with
      | none => s
      | some (b, rest) =>
        let t := s.setChan n { c with cur := some { r with bursts := rest } }
        if taken b then dmaDone (put t b) n b.bytes.length else dmaCheck t n [4] (some 4) (b.ext.addr + b.off) id

/-- A write of a channel to another module has been answered (R481, R484). -/
def dmaWriteAnswer (s : State) (n req : Nat) (ok : Bool) : State :=
  if ok then burstDone s n (fun b => b.req == some req) false
  else
    let c := s.chan n
    let mine : Option Burst := match c.cur with
      | none => none
      | some r => r.bursts.find? fun b => b.req == some req
    let s := match mine with
      | none => s
      | some b => dmaCheck s n [5] (some 5) (remoteDev b.ext.addr + b.off) id
    let c := s.chan n
    s.setChan n { c with flying := c.flying.filter fun b => b.req != some req }

/-- A read of a channel at another module has been answered. -/
def dmaReadAnswer (s : State) (n req : Nat) (data : Option (List (Byte × Bool))) : State :=
  let c := s.chan n
  match c.cur with
  | none => s
  | some r =>
    if r.readReq != some req then s
    else
      match data with
      | none => dmaCheck s n [5] (some 5) r.readAt id
      | some bs =>
        let keep := (bs.drop r.readSkip).take r.readKeep
        s.setChan n { c with cur := some { r with readReq := none, inbuf := r.inbuf ++ keep } }

/-- The reads of a channel at other modules that have not been answered, those of ended lists among them (R599, R722). -/
def readsOut (s : State) (n : Nat) : List Nat := (s.remotes.filter (·.who == .dmaRead n)).map (·.id)
/-- R485, R720: the list in progress and the pending list are discarded; issued bursts complete.
Log entry 38, DESIGN CHOICE. -/
def dmaAbort (s : State) (n : Nat) : State :=
  let c := s.chan n
  let k := (if c.cur.isSome then 1 else 0) + (if c.shadow.isSome then 1 else 0)
  let s := (s.setChan n { c with shadow := none }).bumpBy (R.DMADISC n) k
  let s := match c.cur with
    | some r => flyOn s n r
    | none => s
  let c := s.chan n
  s.setChan n { c with flying := c.flying.map fun b => { b with told := true }, toldReads := readsOut s n }

end Sys2Proof.Machine
end

