-- ==== Sys2Proof/Machine/Fabric.lean ====
section
/-! DEFINITION. Sys2Proof/Machine/Fabric.lean: flits and their headers (R587 to R596), the route tables (R606 to R613), the
injection of a module's own requests and their answers (R597 to R599, R610, R615). -/

namespace Sys2Proof.Machine

/-! ## Flit headers (R591 to R594) -/

/-- R592: one step of the CRC register with a message bit. -/
def crcStep (r b : Nat) : Nat :=
  let top := r / 32768 % 2
  let s := r * 2 % 65536
  if (top + b) % 2 = 1 then Nat.xor s 0x1021 else s
def crcBits (h : Nat) : Nat → Nat → Nat
  | 0, r => r
  | k + 1, r => crcBits h k (crcStep r (h / 2 ^ (16 + k) % 2))
/-- R592: the CRC of header bits 127 down to 16. -/
def crc16 (h : W128) : Nat := crcBits h.toNat 112 0xFFFF

def hf (h : W128) (lo n : Nat) : Nat := bitsOf h.toNat lo n
def Flit.typ (f : Flit) : Nat := hf f.hdr 124 4
def Flit.vc (f : Flit) : Nat := hf f.hdr 122 2
def Flit.epoch (f : Flit) : Nat := hf f.hdr 121 1
def Flit.poison (f : Flit) : Bool := bitOf f.hdr.toNat 120
def Flit.lseq (f : Flit) : Nat := hf f.hdr 108 12
def Flit.dst (f : Flit) : Nat := hf f.hdr 88 20
def Flit.src (f : Flit) : Nat := hf f.hdr 68 20
def Flit.addr (f : Flit) : Nat := hf f.hdr 24 44
def Flit.len (f : Flit) : Nat := hf f.hdr 16 8 + 1

/-- A header without LSEQ and CRC; `spec` is bits [87:16]. -/
def mkHdr (typ vc epoch : Nat) (poison : Bool) (dst spec : Nat) : W128 :=
  BitVec.ofNat 128 (typ % 16 * 2 ^ 124 + vc % 4 * 2 ^ 122 + epoch % 2 * 2 ^ 121 + (if poison then 2 ^ 120 else 0) +
    dst % 2 ^ 20 * 2 ^ 88 + spec % 2 ^ 72 * 2 ^ 16)
/-- R592, R618: LSEQ and CRC put into a header as it leaves a port. -/
def sealHdr (h : W128) (lseq : Nat) : W128 :=
  let n := setBits h.toNat 108 12 lseq
  let w := BitVec.ofNat 128 n
  BitVec.ofNat 128 (setBits n 0 16 (crc16 w))

/-- Type-specific fields (R594). -/
def specMem (src addr len : Nat) : Nat := src % 2 ^ 20 * 2 ^ 52 + addr % 2 ^ 44 * 2 ^ 8 + (len - 1) % 256
def specMsg (src q nw : Nat) (more : Bool) (wpois : Nat) : Nat :=
  src % 2 ^ 20 * 2 ^ 52 + q % 16 * 2 ^ 48 + (nw - 1) % 32 * 2 ^ 43 + (if more then 2 ^ 42 else 0) + wpois % 2 ^ 30 * 2 ^ 12
def specAns (src key optype code : Nat) : Nat :=
  src % 2 ^ 20 * 2 ^ 52 + key % 2 ^ 44 * 2 ^ 8 + optype % 16 * 16 + code % 16
def specRed (grp tag cnt fmt off : Nat) : Nat :=
  grp % 4096 * 2 ^ 60 + tag % 65536 * 2 ^ 44 + cnt % 65536 * 2 ^ 28 + fmt % 2 * 2 ^ 27 + off % 2 ^ 27

/-- R593, R594: the virtual channel is one that the type permits, and no header field holds a reserved encoding. -/
def flitOk (f : Flit) : Bool :=
  let h := f.hdr
  let data := decide (f.vc ≤ 1)
  match f.typ with
  | 0 => f.dst == 0 && hf h 16 55 == 0
  | 1 | 2 | 3 => data && decide (f.len ≤ 240)
  | 4 => f.vc == 1 && decide (hf h 59 5 ≤ 29) && hf h 16 12 == 0
  | 5 => data && decide (hf h 52 2 ≤ 1) && hf h 16 4 == 0
  | 6 => data && hf h 16 4 == 0 && [1, 2, 4, 5].contains (hf h 20 4) && (hf h 20 4 != 4 || f.vc == 1)
  | 7 => data && [1, 2, 4, 5].contains (hf h 20 4) && (hf h 20 4 != 4 || f.vc == 1) && decide (1 ≤ hf h 16 4) && decide (hf h 16 4 ≤ 5)
  | 8 => data && decide (f.len ≤ 240) && hf h 100 8 == 0
  | 9 => f.vc == 2
  | 10 => f.vc == 3 && hf h 16 52 == 0
  | _ => false

/-- R593: the type expects an answer. -/
def expectsAnswer (typ : Nat) : Bool := typ == 1 || typ == 2 || typ == 4 || typ == 5

/-- The request's ADDR, or its MQ or CTR, as an answer carries it (R594). -/
def Flit.key (f : Flit) : Nat :=
  match f.typ with
  | 4 => hf f.hdr 64 4
  | 5 => hf f.hdr 54 14
  | _ => f.addr

def padded (bs : List Byte) : List Byte := fitBytes 240 bs

/-! ## Ports -/

def State.port (s : State) (n : Nat) : Port := tget {} s.ports n
def State.setPort (s : State) (n : Nat) (p : Port) : State := { s with ports := tput {} s.ports n p }
def portActive (s : State) (n : Nat) : Bool := s.fget (R.LNKSTAT_STATE n) == 5
/-- R608: flits are routed to the port: it is ACTIVE, and no Round boundary is still to come since it left ACTIVE. -/
def portOpen (s : State) (n : Nat) : Bool :=
  portActive s n && (!(s.port n).left || s.fbit (R.LNKSTAT_FAILOVER n))

/-- A flit joins a port's queue of its virtual channel. It stands in its input buffer until it is sent, unless that buffer is
the other I/O die's. Log entry 45, DESIGN CHOICE. -/
def txPut (s : State) (n : Nat) (f : Flit) : State :=
  let p := s.port n
  let f := { f with inPort := f.inPort.filter fun m => m / 12 == n / 12 }
  s.setPort n { p with tx := tput [] p.tx f.vc (tget [] p.tx f.vc ++ [f]) }

/-- The module's own endpoint (R588). -/
def ownEp (s : State) : Nat := s.fget R.EPCFG_EPBASE * 256
/-- R589, R788: flits other than LINK and MGMT are sent and accepted. -/
def trafficOn (s : State) : Bool := s.fbit R.EPCFG_VALID && !s.stopped

/-! ## Tables (R606, R609, R613, R633) -/

def tblKey (iod tbl n size : Nat) : Nat := (iod * 2 + tbl) * size + n
def routeEntry (s : State) (iod tbl ep : Nat) : Nat := (tget (0 : W16) s.routes (tblKey iod tbl ep (2 ^ 20))).toNat
def mcastEntry (s : State) (iod tbl g : Nat) : Nat := (tget (0 : W16) s.mcast (tblKey iod tbl g 4096)).toNat
def groupWord (s : State) (iod tbl g w : Nat) : Nat := (tget (0 : W32) s.groups (tblKey iod tbl g 4096 * 3 + w)).toNat

/-- R785: the master of a report about a flit, the requester: the source of a request, the target of an answer; this module for a
flit that names none. Log entry 18, DEDUCED. -/
def Flit.master (s : State) (f : Flit) : Nat :=
  let ep := if f.typ = 3 || f.typ = 6 || f.typ = 7 then f.dst else f.src
  if f.typ = 0 || f.typ = 9 || 10 < f.typ then s.endpoint 0 else if ownBlock s ep then ep else ep / 256 * 256

def curTbl (s : State) : Nat := s.fget R.RTSTAT_CUR
/-- R613: neither case of a table that the EPOCH names holds. -/
def staleEpoch (s : State) (epoch : Nat) : Bool :=
  epoch != curTbl s && !s.fbit R.RTSTAT_ARMED && !s.fbit R.RTSTAT_OVERLAP
/-- R613: the table that routes a flit. Log entry 47, DEDUCED. -/
def tableOf (s : State) (epoch : Nat) : Nat := if staleEpoch s epoch then curTbl s else epoch
/-- R613: a flit is routed. Log entry 47, DEDUCED. -/
def countStale (s : State) (epoch : Nat) : State := if staleEpoch s epoch then s.bump R.EPSTALE else s

/-- R606, R609, R633: the check of a table word: a damaged entry acts as V = 0. `tbl` is 0 route, 1 multicast or group.
A corrected word joins the rewrite queue of the first base die beside the I/O die (R396). -/
def tableCheck (s : State) (iod kind idx : Nat) (own : Option Ctx) (master : Nat) : Bool × State :=
  let pr := s.probe 0x1B (iod * 2 + kind) [1, 2] idx
  match pr.1 with
  | none => (false, s)
  | some k =>
    let s := if k = 1 then queueRewrite pr.2 (2 * iod) 0x1B (iod * 2 + kind) idx else pr.2
    (k == 2, s.reportFrom (if k = 1 then .corrected else if own.isSome then .contained else .notice) 0x1B
      (iod * 2 + kind) k (optParty own) 1 idx master true)

/-- The context whose declared route blocks, multicast groups or reduction groups hold a number (R610). -/
def rangeHas (v n : Nat) : Bool := within (bitsOf v 16 12, bitsOf v 0 13) n 1
def blockOwner (s : State) (iod ep : Nat) : Option Ctx :=
  if endpointAt s .d iod ep then some .d else if endpointAt s .t iod ep then some .t else none
def mcastOwner (s : State) (iod g : Nat) : Option Ctx :=
  if s.jhas .d 0x31 iod && rangeHas (s.jrange .d 0x31 iod).1 g then some .d
  else if s.jhas .t 0x31 iod && rangeHas (s.jrange .t 0x31 iod).1 g then some .t else none
def groupOwner (s : State) (iod g : Nat) : Option Ctx :=
  if s.jhas .d 0x31 iod && rangeHas (s.jrange .d 0x31 iod).2 g then some .d
  else if s.jhas .t 0x31 iod && rangeHas (s.jrange .t 0x31 iod).2 g then some .t else none

/-- Where a flit goes (R607). -/
inductive Way where
  | here
  | port (n : Nat)
  | lost
deriving DecidableEq, Repr

/-- R607, R608: the outcome for an output encoding. -/
def outWay (s : State) (iod out : Nat) (alt : Option Nat) (peer : State → Way × State) : Way × State :=
  let port (s : State) (o : Nat) : Way × State :=
    if portOpen s (iod * 12 + o) then (.port (iod * 12 + o), s) else (.lost, s.bump R.RTDOWN)
  let direct (s : State) (o : Nat) : Way × State :=
    if o < 12 then port s o
    else if o = 16 then (.here, s)
    else if o = 17 then peer s
    else (.lost, s.bump R.RTMISS)
  match alt with
  | some a => if out < 12 && s.fbit (R.LNKSTAT_FAILOVER (iod * 12 + out)) then direct s a else direct s out
  | none => direct s out

/-- R607: a flit enters an I/O die's crossbar and its DST is looked up; the bridge to the other I/O die is crossed at most
twice. -/
def lookupWay : Nat → State → Nat → Flit → Way × State
  | 0, s, _, _ => (.lost, s)
  | k + 1, s, iod, f =>
    let m := f.master s
    let s := crossbarIn s iod f.vc m
    if ownBlock s f.dst then (.here, s)
    else
      let c := tableCheck (countStale s f.epoch) iod 0 f.dst (blockOwner s iod f.dst) m
      let e := if c.1 then 0 else routeEntry c.2 iod (tableOf s f.epoch) f.dst
      let pr := c.2.probe 0x40 (24 + iod) [3] 0
      if !bitOf e 15 || pr.1.isSome then
        (.lost, (pr.2.bump R.RTMISS).reportFrom .notice 0x40 (24 + iod) 3 .none 8 0 m pr.1.isSome)
      else outWay c.2 iod (bitsOf e 10 5) (if bitOf e 9 then some (bitsOf e 4 5) else none) fun s =>
        lookupWay k s (1 - iod) f

/-! ## Requests of this module and their answers (R597 to R599, R610, R615) -/

/-- R490, R507: a store's refusal is counted once: of its other flit, none is counted any more. -/
def countedOnce (s : State) (id : Nat) : State :=
  { s with
    remotes := s.remotes.map fun q => if q.id = id then { q with who := .counted } else q
    held := s.held.map fun h => if h.2.2.2 = id then (h.1, h.2.1, .counted, id) else h }

/-- The outcome of a request reaches its requester: 0, the code of an ERR (R598), or 16 where no answer came. `data` is what
a read returned. A message to a full or unowned queue is only dropped (R490). Log entry 37, DESIGN CHOICE. -/
def answerWho (s : State) (id : Nat) (who : ReqWho) (code : Nat) (data : List (Byte × Bool)) : State :=
  match who with
  | .dmaWrite n => dmaWriteAnswer s n id (code == 0)
  | .dmaRead n => dmaReadAnswer s n id (if code = 0 then some data else none)
  | .withy c x => if code = 0 then s else { s with withyErrs := s.withyErrs ++ [(c, x)] }
  | .withyPart c x mate => if code = 0 then s else countedOnce { s with withyErrs := s.withyErrs ++ [(c, x)] } mate
  | .counted => s
  | .message c x => if code = 0 || code = 4 then s else { s with withyErrs := s.withyErrs ++ [(c, x)] }

/-- The request leaves, or completes at once with ERR NOROUTE. -/
def sendRequest (s : State) (iod id : Nat) (f : Flit) (who : ReqWho) (len : Nat) : State :=
  let f := { f with hdr := BitVec.ofNat 128 (setBits f.hdr.toNat 121 1 (curTbl s)) }
  let w := lookupWay 3 s iod f
  match w.1 with
  | .port n =>
    txPut { w.2 with remotes := w.2.remotes ++ [⟨id, f.typ, f.dst, f.key, len, none, f.epoch, f.vc, who, false⟩] } n f
  | _ => answerWho w.2 id who 1 []

/-- R615: the flit must wait until the old epoch's unscheduled requests are answered. -/
def mustHold (s : State) (f : Flit) : Bool := s.epochHold && f.vc == 1 && f.typ != 2

/-- A request is injected at an I/O die for a context or the host (R610, R611): its number, and the state.
Log entry 48, DESIGN CHOICE. -/
def request (s : State) (iod : Nat) (x : Option Ctx) (f : Flit) (who : ReqWho) (len : Nat) : Nat × State :=
  let id := s.nextReq
  let s := { s with nextReq := id + 1 }
  let granted := match x with | none => true | some c => endpointAt s c iod f.dst
  (id, if !granted || !trafficOn s then answerWho s id who 1 []
    else if mustHold s f then { s with held := s.held ++ [(iod, f, who, id)] }
    else sendRequest s iod id f who len)

/-- R597: the first outstanding request that an answer for type `op` and key on virtual channel `vc` matches, and the
others: the answer comes from the target, or from a hop (`hop`) that discarded the flit. -/
def takeRemote (op key src vc : Nat) (hop : Bool) : List Remote → Option (Remote × List Remote)
  | [] => none
  | q :: r =>
    if q.typ = op && q.key = key && q.vc = vc && (hop || q.dst / 256 = src / 256) then some (q, r)
    else
      match takeRemote op key src vc hop r with
      | none => none
      | some (x, t) => some (x, q :: t)

/-- R597 to R599: an answer reaches this module; one that no request awaits is counted. Log entry 48, DESIGN CHOICE. -/
def answerArrives (s : State) (op key src vc code : Nat) (data : List (Byte × Bool)) : State :=
  match takeRemote op key src vc (code == 1) s.remotes with
  | none => s.bump R.RSPLATE
  | some (q, rest) => answerWho { s with remotes := rest } q.id q.who code data

/-- R597, R598: RDATA, ACK and ERR at their requester. -/
def rdataHere (s : State) (f : Flit) : State :=
  answerArrives s 2 f.addr f.src f.vc 0 ((f.payload.take f.len).map fun b => (b, f.poison))
def ackHere (s : State) (f : Flit) : State :=
  answerArrives s (hf f.hdr 20 4) (hf f.hdr 24 44) f.src f.vc (if f.typ = 6 then 0 else hf f.hdr 16 4) []
def answerHere (s : State) (f : Flit) : State := if f.typ = 3 then rdataHere s f else ackHere s f
/-- R593: an answer on another virtual channel than that of the request it answers. -/
def answerVcBad (s : State) (f : Flit) : Bool :=
  let on (vc : Nat) : Bool :=
    (if f.typ = 3 then takeRemote 2 f.addr f.src vc false s.remotes
     else takeRemote (hf f.hdr 20 4) (hf f.hdr 24 44) f.src vc (f.typ == 7 && hf f.hdr 16 4 == 1) s.remotes).isSome
  ownBlock s f.dst && (f.typ == 3 || f.typ == 6 || f.typ == 7) && !on f.vc && on (1 - f.vc)

/-- An answer is routed toward the endpoint that asked (R587, R607). -/
def sendAnswer (s : State) (iod : Nat) (f : Flit) : State :=
  let w := lookupWay 3 s iod f
  match w.1 with
  | .port n => txPut w.2 n f
  | .here => answerHere w.2 f
  | .lost => w.2

/-- ACK (code 0) or ERR for a request; an answer is injected here, and so takes the current table (R611). -/
def respond (s : State) (iod : Nat) (f : Flit) (from_ code : Nat) : State :=
  sendAnswer s iod ⟨mkHdr (if code = 0 then 6 else 7) f.vc (curTbl s) false f.src (specAns from_ f.key f.typ code),
    List.replicate 240 0, none⟩

/-- R595: the words of a flit's payload with their poison, as bytes. -/
def payloadCells (f : Flit) : List Byte × List Nat :=
  let bs := f.payload.take f.len
  (bs, if f.poison then upto bs.length else [])

end Sys2Proof.Machine
end

