-- ==== Sys2Proof/Machine/Dma.lean ====
section
/-! DEFINITION. Sys2Proof/Machine/Dma.lean: the commands and events of the DMA channels (R466 to R486) and of the shared
ports' arbiters (R492 to R500). -/

namespace Sys2Proof.Machine

/-! ## Inbound windows (R393) -/

/-- R401: the bytes touch the sequencer area of a stack, which no inbound window may include. Log entry 94, DEDUCED. -/
def touchesSeq (a n : Nat) : Bool :=
  (upto 8).any fun k => decide (a < stackBase k + 0xC00000000) && decide (stackBase k + 0xBD0000000 < a + n)
/-- R393, R417: an enabled window that grants the direction holds the whole extent. Bits [2:0] of the base are EN, R, W,
from the highest. Log entry 94, DEDUCED. -/
def windowOk (s : State) (a len : Nat) (write : Bool) : Bool :=
  (upto 16).any fun n =>
    let b := s.wideGet 2 (0x10 + 2 * n)
    let l := s.wideGet 2 (0x11 + 2 * n)
    bitOf b 2 && bitOf b (if write then 0 else 1) && !touchesSeq a len && decide (b / 4096 * 4096 ≤ a) && decide (a + len ≤ l / 4096 * 4096)
/-- An inbound access of n bytes: 0 served, else the ERR code (R393, R598). -/
def inboundCode (s : State) (a len : Nat) (write : Bool) : Nat :=
  if (tierOf a).isNone || (tierOf (a + len - 1)).isNone then 3
  else if !windowOk s a len write then 2
  else if !serves s a then 3 else 0
/-- R393: an access outside the windows is counted at the target, whatever code it is answered with. -/
def inboundRefuse (s : State) (a len : Nat) (write : Bool) : State :=
  if windowOk s a len write then s else s.bump R.INWREF

/-! ## Lists -/

/-- Addresses at which a range is checked: its ends, and every 16 MiB between; every boundary of R368 and every gap
between partitions holds such a point. -/
def probePoints (a len : Nat) : List Nat :=
  a :: (a + len - 1) ::
    (upto ((a + len - 1) / 0x1000000 - a / 0x1000000)).map fun k => (a / 0x1000000 + 1 + k) * 0x1000000
/-- R484: the extent, checked in full, lies in R368 and, for a context's channel, in its partition. Whether each access of it
is served is known when the access is made (R391). Log entry 38, DESIGN CHOICE. -/
def extentOk (s : State) (x : Option Ctx) (e : Extent) : Bool :=
  e.remote || e.len == 0 ||
  (probePoints e.addr e.len).all fun a => (tierOf a).isSome && match x with | none => true | some c => granted s c a 1

/-- R400, R484: the check of an extent of a channel before its first access: whether it is refused. A violation of the
owner's partition is reported by the partition detector too. Log entry 20, DEDUCED. -/
def partCheck (s : State) (n : Nat) (e : Extent) (acc : Nat) : Bool × State :=
  match chanOwner s n with
  | none => (!extentOk s none e, s)
  | some x =>
    let real := extentOk s none e && !extentOk s (some x) e
    let r := s.check 0x22 n [acc] e.addr (fun _ => false) (if real then some acc else none)
    if r.1.isSome then
      (true, r.2.2.reportOn (collOf 0x30 n) .contained 0x22 n acc (ctxParty x) acc e.addr (s.endpoint 0) r.2.1)
    else (!extentOk s (some x) e, s)

/-- R466, R585: the I/O die of a channel's outbound traffic. -/
def chanIod (n : Nat) : Nat := if n < 64 then iodOfDie (n / 16) else (n - 64) / 16
/-- R494: the virtual channel of a channel's traffic. -/
def chanVc (s : State) (n : Nat) (r : DmaRun) : Nat := if (chanOwner s n).isSome && bitOf r.cfg.toNat 15 then 0 else 1

/-- R494, R604: an access of a channel crosses the mesh inside the module. -/
def chanIn (s : State) (n : Nat) (r : DmaRun) : State := crossbarIn s (chanIod n) (chanVc s n r) (s.endpoint 0)

/-- R485, R788, R799: the channel makes progress. -/
def chanRuns (s : State) (n : Nat) : Bool := s.fbit (R.DMACTL_ENABLE n) && !s.stopped && !bitOf s.fenceChans n

/-- R467, R476: GO. -/
def dmaGo (s : State) (n : Nat) : State :=
  let c := s.chan n
  let r := s.check 0x30 n [0x10] 0 (fun _ => true)
    (if (chanOwner s n).isSome || c.shadow.isSome || bitOf s.fenceChans n then some 0x10 else none)
  if r.1.isSome then r.2.2.reportFrom .notice 0x30 n 0x10 (optParty (chanOwner s n)) 9 0 (s.endpoint 0) r.2.1
  else r.2.2.setChan n { c with shadow := some ⟨s.wideGet 7 (0x100 + n), s.fget (R.DMASNENT_SNENT n) + 1⟩ }

def execDmactlGo (req : Req) (ch : ChanId) (s : State) : Host.Outcome State Fault Refusal :=
  strobe s req (R.DMACTL ch) fun s => dmaGo s ch
def execDmactlAbort (req : Req) (ch : ChanId) (s : State) : Host.Outcome State Fault Refusal :=
  strobe s req (R.DMACTL ch) fun s => dmaAbort s ch
def execDmactlEnable (req : Req) (ch : ChanId) (on : Bool) (s : State) : Host.Outcome State Fault Refusal :=
  enable s req (R.DMACTL_ENABLE ch) on

/-- R469, R476, R483: the pending list enters the register set. Log entry 38, DESIGN CHOICE. -/
def dmaStart (s : State) (n : Nat) : State :=
  let c := s.chan n
  match c.shadow, c.cur with
  | some l, none =>
    if chanRuns s n then
      s.setChan n { c with
        shadow := none
        cur := some { list := l, cfg := s.rd (R.DMACFG n), sig := s.rd (R.DMASIG n), accAt := s.clk.tenths } }
    else s
  | _, _ => s
def execDmaListStart (ch : ChanId) (s : State) : Host.Outcome State Fault Refusal := ifAlive s (dmaStart s ch)

/-- R472, R484: an entry breaks a rule of the list. -/
def entryBad (idx addr len flags : Nat) : Bool :=
  let typ := bitsOf flags 30 2
  if idx = 0 then flags != 2 ^ 31 || len != 0 || decide (2 ^ 48 ≤ addr)
  else decide (2 ≤ typ) || bitsOf flags 27 2 == 3 || flags % 2 ^ 26 != 0 || (typ == 0 && bitOf flags 26)

/-- R473: the index of the entry in progress: of the entries that bytes are moved between the later one; while no byte can be
moved, the entry read last. Log entry 38, DESIGN CHOICE. -/
def DmaRun.entry (r : DmaRun) : Nat :=
  match r.srcs, r.dsts with
  | a :: _, b :: _ => if r.total ≤ r.moved then r.fetched - 1 else max a.entry b.entry
  | _, _ => r.fetched - 1
/-- R473: the next entry may be read, at most 16 ahead of the entry in progress. -/
def fetchOk (r : DmaRun) : Bool := decide (r.fetched < r.list.nent) && decide (r.fetched ≤ r.entry + 16)

/-- R470 to R473, R484: one list entry is read. Log entry 38, DESIGN CHOICE. -/
def dmaFetch (s : State) (n : Nat) : State :=
  match (s.chan n).cur with
  | none => s
  | some r =>
    if !chanRuns s n || !fetchOk r then s
    else if r.list.nent < 3 || r.list.addr % 16 != 0 then dmaCheck s n [1, 2] (some 2) 0 id
    else
      let x := chanOwner s n
      let a := r.list.addr + 16 * r.fetched
      let as := (upto 16).map (· + a)
      let out := partCheck s n ⟨a, 16, false, 0, false, 0⟩ 1
      if out.1 || !serves s a then dmaCheck out.2 n [1, 2] (some 1) a id
      else
        let rd := devRead (chanIn out.2 n r) x 0 as (s.endpoint 0) (128 + n)
        if rd.1.poisoned a 16 then dmaCheck rd.2 n [1, 2] (some 1) a id
        else
          let bs := as.map (tget 0 rd.1.mem)
          let addr := ofLe (bs.take 8)
          let len := ofLe ((bs.drop 8).take 4)
          let flags := ofLe (bs.drop 12)
          dmaCheck rd.2 n [1, 2] (if entryBad r.fetched addr len flags then some 2 else none) 0 fun t =>
            let e : Extent := ⟨addr, len, bitOf flags 29, bitsOf flags 27 2, bitOf flags 26, r.fetched⟩
            let r1 := { r with fetched := r.fetched + 1 }
            let r2 :=
              if r.fetched = 0 then { r1 with total := addr }
              else if bitsOf flags 30 2 = 0 then
                { r1 with srcs := r.srcs ++ [e], allSrcs := r.allSrcs ++ [e], srcTotal := r.srcTotal + len }
              else { r1 with dsts := r.dsts ++ [e], allDsts := r.allDsts ++ [e], dstTotal := r.dstTotal + len }
            dmaFinish (t.setChan n { t.chan n with cur := some r2 }) n
def execDmaEntryFetch (ch : ChanId) (s : State) : Host.Outcome State Fault Refusal := ifAlive s (dmaFetch s ch)

/-! ## Bursts -/

/-- R478: how many bytes are read at once from byte `a` of an extent that ends at `top`, when `k` are wanted: to the end of
the 64-byte line, so that no line is read twice. -/
def linePiece (a top k : Nat) : Nat := min top (cdiv (a + k) 64 * 64) - a
/-- R478, R479: bytes that channel `n` reads from a local extent, its bounds rounded outward to 64 bytes.
Log entry 38, DESIGN CHOICE. -/
def readLocal (s : State) (n : Nat) (x : Option Ctx) (chint a k : Nat) : List (Byte × Bool) × State :=
  let lo := a / 64 * 64
  let as := (upto (cdiv (a + k) 64 * 64 - lo)).map (· + lo)
  let rd := devRead s x chint as (s.endpoint 0) (128 + n)
  ((upto k).map fun j => (tget 0 rd.1.mem (a + j), rd.1.poison.contains ((a + j) / 4)), rd.2)

/-- What filling a channel's buffer has come to. -/
structure Pull where
  s : State
  r : DmaRun
  err : Option Nat := none
  /-- The device address of the access that failed (R786). -/
  at_ : Nat := 0
deriving DecidableEq, Repr

/-- The source extent at the front is used up by k more bytes. -/
def DmaRun.take (r : DmaRun) (e : Extent) (k : Nat) : DmaRun :=
  if r.srcPos + k = e.len then { r with srcs := r.srcs.tail, srcPos := 0 } else { r with srcPos := r.srcPos + k }

/-- Source bytes are gathered until the buffer holds `need`, or a remote read must be waited for.
Log entry 38, DESIGN CHOICE. -/
def pullSrc (n : Nat) (x : Option Ctx) (need : Nat) : Nat → Pull → Pull
  | 0, p => p
  | fuel + 1, p =>
    if p.err.isSome || need ≤ p.r.inbuf.length || p.r.readReq.isSome then p
    else
      match p.r.srcs with
      | [] => p
      | e :: rest =>
        if e.len = 0 then pullSrc n x need fuel { p with r := { p.r with srcs := rest, srcPos := 0 } }
        else
          if !e.remote then
            let a := e.addr + p.r.srcPos
            let k := linePiece a (e.addr + e.len) (need - p.r.inbuf.length)
            let out := if p.r.srcPos = 0 then partCheck p.s n e 1 else (false, p.s)
            if out.1 then { p with s := out.2, err := some 4, at_ := e.addr }
            else
              -- R391, R689: an access that is not served ends the list; those beside it have been made
              let q := readLocal (chanIn out.2 n p.r) n x e.chint a k
              if !serves out.2 a || !serves out.2 (a + k - 1) then
                { p with s := q.2, err := some 4, at_ := if serves out.2 a then a + k - 1 else a }
              else pullSrc n x need fuel { p with s := q.2, r := { p.r with inbuf := p.r.inbuf ++ q.1 }.take e k }
          else
            let ep := remoteEp e.addr
            let a := remoteDev e.addr + p.r.srcPos
            if ownBlock p.s ep then
              let k := linePiece a (remoteDev e.addr + e.len) (need - p.r.inbuf.length)
              let code := if ep % 256 = 0 then inboundCode p.s a k false else 3
              let refuse (s : State) : State := if ep % 256 = 0 then inboundRefuse s a k false else s
              if code != 0 then { p with s := refuse p.s, err := some 5, at_ := a }
              else
                let q := readLocal (chanIn p.s n p.r) n x e.chint a k
                pullSrc n x need fuel { p with s := q.2, r := { p.r with inbuf := p.r.inbuf ++ q.1 }.take e k }
            else
              -- R478: the extent's bounds are rounded outward to multiples of 64 bytes
              let lo := if p.r.srcPos = 0 then a / 64 * 64 else a
              let hi := cdiv (remoteDev e.addr + e.len) 64 * 64
              let len := min 240 (hi - lo)
              let kept := min (lo + len) (remoteDev e.addr + e.len) - a
              let r := { p.r with readReq := some p.s.nextReq, readSkip := a - lo, readKeep := kept, readAt := lo }.take e kept
              let f : Flit := ⟨mkHdr 2 (chanVc p.s n r) 0 false ep (specMem (ownEp p.s) lo len), List.replicate 240 0, none⟩
              let s := p.s.setChan n { p.s.chan n with cur := some r }
              let q := request s (chanIod n) x f (.dmaRead n) len
              match (q.2.chan n).cur with
              | some r' => { p with s := q.2, r := r' }
              | none => { p with s := q.2, r := r, err := some 0 }

/-- Empty destination extents at the front are passed, unless a fence holds them. -/
def passEmpty (r : DmaRun) : Nat → DmaRun
  | 0 => r
  | k + 1 =>
    match r.dsts with
    | d :: rest => if d.len = 0 && !(d.fence && !r.bursts.isEmpty) then passEmpty { r with dsts := rest } k else r
    | [] => r

/-- R483: the accumulator now. -/
def DmaRun.units (r : DmaRun) (now : Nat) : Nat :=
  let rate := bitsOf r.cfg.toNat 24 8
  min 512 (r.acc + (now / 5 - r.accAt / 5) * (if rate = 0 then 256 else rate))

/-- The bytes of a burst leave the channel: to local storage when DMA_WRITE_COMPLETE comes, or as a WRITE. -/
def burstIssue (s : State) (n : Nat) (x : Option Ctx) (r : DmaRun) (d : Extent) (b : Nat) : State :=
  let bs := r.inbuf.take b
  let bytes := bs.map (·.1)
  let bad := (upto b).filter fun k => (bs.getD k (0, false)).2
  let off := r.dstPos
  let r1 := { r with
    inbuf := r.inbuf.drop b, moved := r.moved + b, acc := r.units s.clk.tenths - 2 * b, accAt := s.clk.tenths
    dsts := if off + b = d.len then r.dsts.tail else r.dsts
    dstPos := if off + b = d.len then 0 else off + b }
  let put (req : Option Nat) (e : Extent) : State :=
    s.setChan n { s.chan n with cur := some { r1 with bursts := r1.bursts ++ [⟨e, off, bytes, bad, req, false⟩] } }
  let here (e : Extent) : State := chanIn (put none e) n r
  if !d.remote then here d
  else
    let ep := remoteEp d.addr
    let a := remoteDev d.addr
    if ownBlock s ep then
      let code := if ep % 256 = 0 then inboundCode s (a + off) b true else 3
      let refuse (s : State) : State := if ep % 256 = 0 then inboundRefuse s (a + off) b true else s
      if code != 0 then dmaCheck (refuse s) n [5] (some 5) (a + off) id else here { d with addr := a, remote := false }
    else
      let f : Flit := ⟨mkHdr 1 (chanVc s n r) 0 (!bad.isEmpty) ep (specMem (ownEp s) (a + off) b), padded bytes, none⟩
      (request (put (some s.nextReq) d) (chanIod n) x f (.dmaWrite n) b).2

/-- R483: one destination burst starts. Log entry 38, DESIGN CHOICE. -/
def dmaBurst (s : State) (n : Nat) : State :=
  match (s.chan n).cur with
  | none => s
  | some r0 =>
    let r := passEmpty r0 r0.dsts.length
    if !chanRuns s n || r.fetched = 0 then s
    else
      match r.dsts with
      | [] => dmaFinish (s.setChan n { s.chan n with cur := some r }) n
      | d :: _ =>
        let x := chanOwner s n
        let room := if d.remote then 240 else 256 - (d.addr + r.dstPos) % 256
        let b0 := min (d.len - r.dstPos) (min (r.total - r.moved) room)
        let b := if r.fetched = r.list.nent then min b0 r.srcLeft else b0
        if (d.fence && r.dstPos == 0 && !r.bursts.isEmpty) || b = 0 || r.units s.clk.tenths < 2 * b then s
        else
          let out := if r.dstPos = 0 then partCheck s n d 2 else (false, s)
          if out.1 then dmaCheck out.2 n [4] (some 4) d.addr id
          else
          let p := pullSrc n x b (r.srcs.length + 1) { s := out.2, r := r }
          match p.err with
          | some 0 => p.s
          | some code => dmaCheck (p.s.setChan n { p.s.chan n with cur := some p.r }) n [4, 5] (some code) p.at_ id
          | none => dmaCheck p.s n (if r.dstPos = 0 then [4] else []) none d.addr fun t =>
            let p := { p with s := t }
            if p.r.inbuf.length < b then p.s.setChan n { p.s.chan n with cur := some p.r }
            else burstIssue p.s n x p.r d b
def execDmaBurst (ch : ChanId) (s : State) : Host.Outcome State Fault Refusal := ifAlive s (dmaBurst s ch)

/-- R481: the oldest write inside this module is accepted by its storage. -/
def execDmaWriteComplete (ch : ChanId) (s : State) : Host.Outcome State Fault Refusal :=
  ifAlive s (burstDone s ch (fun b => b.req.isNone) true)

/-! ## Arbiters (R492 to R500) -/

def State.arb (s : State) (p : Nat) : Arb := tget {} s.arbs p
def State.setArb (s : State) (p : Nat) (a : Arb) : State := { s with arbs := tput {} s.arbs p a }

/-- R469, R493: the tickets of a requester; those of a list in progress are the ones latched with it. -/
def tickets (s : State) : ArbWho → Nat
  | .dma ch => match (s.chan ch).cur with | some r => bitsOf r.cfg.toNat 16 8 | none => s.fget (R.DMACFG_TICKETS ch)
  | .withy c .d => s.fget (R.WYCTL_TKTD c)
  | .withy c .t => s.fget (R.WYCTL_TKTT c)
  | .hostBar => s.fget R.ARBTKT_HOSTBAR
  | .debug => s.fget R.ARBTKT_DEBUG
  | .msp => s.fget R.ARBTKT_MSP

/-- R497: one step of the LFSR. -/
def lfsrStep (s : W32) : W32 :=
  let t := s >>> 1
  if s.toNat % 2 = 1 then t ^^^ 0x80200003#32 else t

/-- Requests by rising input. -/
def insReq (r : ArbReq) : List ArbReq → List ArbReq
  | [] => [r]
  | a :: t => if r.input ≤ a.input then r :: a :: t else a :: insReq r t
def sortReqs (l : List ArbReq) : List ArbReq := l.foldl (fun t r => insReq r t) []

/-- R496: the first input whose running ticket total exceeds x. -/
def drawWinner (s : State) (x : Nat) : Nat → List ArbReq → Nat
  | _, [] => 0
  | _, [r] => r.input
  | acc, r :: t => if x < acc + tickets s r.who then r.input else drawWinner s x (acc + tickets s r.who) t

def fabricCycles (s : State) : Nat := s.clk.tenths / 5

/-- R796: the requester is fenced in service and its reclaim has come: it makes no further request. -/
def fencedReq (s : State) : ArbWho → Bool
  | .dma ch => bitOf s.fenceChans ch && (tget none s.sec.fencedAt (fenceKey 1 ch)).isNone
  | .withy c _ => bitOf s.fenceCores c && (tget none s.sec.fencedAt (fenceKey 0 c)).isNone
  | _ => false
/-- R494: the request travels on the scheduled virtual channel and takes no part in the lottery. -/
def schedReq (s : State) : ArbWho → Bool
  | .dma ch => match (s.chan ch).cur with | some r => chanVc s ch r == 0 | none => false
  | _ => false
/-- R493: an input presents one request at a time, the one at its head. -/
def heads : List ArbReq → List ArbReq
  | [] => []
  | r :: t => r :: (heads t).filter fun q => q.input != r.input
/-- R496: the decision for the next burst boundary. Log entry 39, DESIGN CHOICE. -/
def lottery (s : State) (p : Nat) (reqs : List ArbReq) : State :=
  let a := s.arb p
  let el := sortReqs ((heads reqs).filter fun r =>
    decide (tget 0 a.resumeAt r.input ≤ fabricCycles s) && !fencedReq s r.who && !schedReq s r.who)
  let total := el.foldl (fun t r => t + tickets s r.who) 0
  let max := s.fget (R.ARBCFG_GRANTMAX p)
  let by_ (w : Nat) : Option ArbWho := (el.find? (·.input == w)).map (·.who)
  match el with
  | [] => s.setArb p { a with drawn := none, drawnTo := none }
  | [r] => s.setArb p { a with drawn := some (r.input, []), drawnTo := some r.who, drawnMax := max }
  | r :: _ =>
    if total = 0 then s.setArb p { a with drawn := some (r.input, []), drawnTo := some r.who, drawnMax := max }
    else
      let v := lfsrStep (s.rd (R.ARBSEED p))
      let w := drawWinner s (v.toNat / 65536 * total / 65536) 0 el
      (s.wr (R.ARBSEED p) v).setArb p { a with drawn := some (w, (el.map (·.input)).filter (· != w)), drawnTo := by_ w, drawnMax := max }
def execLotteryDecision (port : ArbId) (reqs : List ArbReq) (s : State) : Host.Outcome State Fault Refusal :=
  ifAlive s (lottery s port reqs)

/-- R499: B fabric cycles after the n-th consecutive loss. Log entry 39, DESIGN CHOICE. -/
def backoff (n : Nat) : Nat := min 1024 (4 * 2 ^ (n - 1))
def loses (s : State) (a : Arb) (i : Nat) : Arb :=
  let n := tget 0 a.losses i + 1
  { a with losses := tput 0 a.losses i n, resumeAt := tput 0 a.resumeAt i (fabricCycles s + backoff n) }

/-- R494: round robin over the inputs of waiting scheduled and reduction requests. Log entry 39, DESIGN CHOICE. -/
def nextSched (last : Option Nat) (l : List Nat) : Option Nat :=
  let m := l.foldl nins []
  match last with
  | none => m.head?
  | some k => (m.find? (fun i => decide (k < i))).or m.head?

/-- R494, R495, R498 to R500: a burst boundary: `sched` lists the inputs of waiting scheduled and reduction requests,
`waiting` those whose unscheduled request still has bursts. Log entry 39, DESIGN CHOICE. -/
def boundary (s : State) (p : Nat) (sched waiting : List Nat) : State :=
  let a := s.arb p
  let fenced (w : Option ArbWho) : Bool := match w with | some w => fencedReq s w | none => false
  let held := match a.grant with
    | some (g, k) => decide (0 < k) && waiting.contains g
    | none => false
  match nextSched a.lastSched sched with
  | some i =>
    let s := if held then s.bump (R.ARBREVOKE p) else s
    s.setArb p { a with grant := none, grantTo := none, drawn := none, drawnTo := none, lastSched := some i }
  | none =>
    let go (s : State) (a : Arb) : State :=
      match a.drawn with
      | none => s.setArb p { a with grant := none, grantTo := none }
      | some (w, ls) =>
        let a' := ls.foldl (loses s) { a with losses := tdel a.losses w, drawn := none, drawnTo := none }
        if waiting.contains w && !fenced a.drawnTo then
          (s.bump (R.ARBGRANT p)).setArb p { a' with grant := some (w, a.drawnMax), grantTo := a.drawnTo }
        else ((s.bump (R.ARBGRANT p)).bump (R.ARBWASTE p)).setArb p { a' with grant := none, grantTo := none }
    match a.grant with
    | some (g, k + 1) =>
      -- R796: the grant of a requester that is reclaimed is revoked, and its input makes no further request
      if fenced a.grantTo then go (if held then s.bump (R.ARBREVOKE p) else s) a
      else if waiting.contains g then s.setArb p { a with grant := some (g, k) } else go s a
    | _ => go s a
def execBurstBoundary (port : ArbId) (sched waiting : List Nat) (s : State) : Host.Outcome State Fault Refusal :=
  ifAlive s (boundary s port sched waiting)

end Sys2Proof.Machine
end

