-- ==== Sys2Proof/Machine/Time.lean ====
section
/-! DEFINITION. Sys2Proof/Machine/Time.lean: the passing of device time (R45): the dies' arithmetic cycles, the timers of
waiters (R450), and the accounting of idle time (R675 to R677). -/

namespace Sys2Proof.Machine

/-! ## Bindings and return entries as data (R637, R663) -/

/-- Bytes o to o + n − 1 of an image as a number. -/
def imgNat (b : List Byte) (o n : Nat) : Nat := ofLe ((b.drop o).take n)
/-- The binding of a group of a context. -/
def binding (s : State) (x : Ctx) (g : Nat) : List Byte := tget [] s.bindings (ctxNum x * 4096 + g)
def hasBinding (s : State) (x : Ctx) (g : Nat) : Bool := !(binding s x g).isEmpty
def bndBit (b : List Byte) (k : Nat) : Bool := bitOf (imgNat b 0 4) k
def retEnt (s : State) (k : Nat) : List Byte := tget [] s.retEnts k

/-! ## Idle accounting -/

/-- R676: a list in a register set holds a REMOTE entry: among those read, or those still in memory. -/
def listRemote (s : State) (r : DmaRun) : Bool :=
  (r.allSrcs ++ r.allDsts).any (·.remote) ||
  (upto (r.list.nent - max 1 r.fetched)).any fun k =>
    bitOf (ofLe (s.ld (r.list.addr + 16 * (max 1 r.fetched + k) + 12) 4)) 29
/-- R676: a counter whose wait is a link wait. -/
def linkCtr (s : State) (n : Nat) : Bool :=
  (s.bindings.any fun b => imgNat b.2 0x24 2 % 16384 == n || imgNat b.2 0x26 2 % 16384 == n) ||
  (s.retEnts.any fun e => imgNat e.2 2 2 % 16384 == n) ||
  (s.chans.any fun c =>
    match c.2.cur with
    | some r => (chanOwner s c.1).isSome && r.sig.toNat % 16384 == n && listRemote s r
    | none => false)

/-- R676: some head entry, or the hart, is in a link wait. -/
def linkWait (s : State) (c : Nat) (x : Ctx) : Bool :=
  let h := s.cc c x
  (match h.stall with
   | .scwait _ n _ => linkCtr s n
   | _ => false) ||
  ([0, 1, 2, 3, 4, 5].any fun q =>
    match s.queue c x q with
    | [] => false
    | e :: _ =>
      (wenOf e.word && linkCtr s (wctrOf e.word) && !(s.ctr (wctrOf e.word)).met (wthrOf e.word)) ||
      (isOp 4 2 e.word && dmagoHold s x e.word))

/-- R349: a head entry is held because arithmetic excludes Moves. -/
def moveHeld (s : State) (c : Nat) (x : Ctx) : Bool :=
  [0, 1, 2, 3].any fun q =>
    match s.queue c x q with
    | [] => false
    | e :: _ =>
      (classOf e.word == 3 && (busy s c 0 || busy s c 1 || busy s c 2)) || (decide (classOf e.word ≤ 2) && busy s c 3)

/-- R675: the counter that a cycle of the core is charged to. -/
def idleKind (s : State) (c : Nat) (x : Ctx) : Nat :=
  let h := s.cc c x
  let fl (p : InFlight → Bool) : Bool := (s.core c).infl.any fun e => e.2.ctx == x && p e.2
  if h.issueHalt || (x == .d && s.fbit R.RNDSTAT_DHELD) then 0
  else
    match (s.core c).switch with
    | some (_, t0) => if s.clk.tenths - t0 > 20000 then 1 else 2
    | none =>
      if !s.named x c then 2
      else if fl fun i => decide (classOf i.word ≤ 2) then 3
      else if (fl fun i => classOf i.word == 3) || moveHeld s c x then 4
      else if linkWait s c x then 5
      else if !h.waits.isEmpty then 6
      else 7

/-- R677: n cycles on a counter; past 2^48 − 1 it wraps and sets its flag. -/
def idleAdd (s : State) (c : Nat) (x : Ctx) (k n : Nat) : State :=
  let h := s.cc c x
  let v := (tget (0 : BitVec 48) h.idle k).toNat + n
  let s := s.setCc c x { h with idle := tput 0 h.idle k (BitVec.ofNat 48 v) }
  if v < 2 ^ 48 then s
  else s.forr (match x with | .d => R.IDLWRAP_WRAPD c | .t => R.IDLWRAP_WRAPT c) (2 ^ k)

/-- R65: of the n cycles of an interval of dt tenths, those of a pending switch that lie within its first 2 µs. -/
def switchSplit (s : State) (c dt n : Nat) : Nat :=
  match (s.core c).switch with
  | none => n
  | some (_, t0) =>
    if s.clk.tenths + dt ≤ t0 + 20000 then n
    else min n ((tget 0 s.cycles (dieOf c) + (t0 + 20000 - s.clk.tenths) * s.fget (R.VFSTAT_FREQ (dieOf c))) / 10000 -
      s.dieCycles (dieOf c))
/-- R65, R675: n cycles of an interval on a core; the cycles of a switch beyond 2 µs count as overrun. -/
def chargeCore (s : State) (x : Ctx) (dt : Nat) (t : State) (c n : Nat) : State :=
  let k := idleKind s c x
  if k = 2 then
    let a := switchSplit s c dt n
    let t := if a = 0 then t else idleAdd t c x 2 a
    if a = n then t else idleAdd t c x 1 (n - a)
  else idleAdd t c x k n
/-- R675: the cycles of an interval are charged on every core to the owner of the window. -/
def chargeIdle (s s' : State) (dt : Nat) : State :=
  match s.owner with
  | none => s'
  | some x =>
    if !s.loaded x then s'
    else (upto 128).foldl (fun t c =>
      let n := s'.dieCycles (dieOf c) - s.dieCycles (dieOf c)
      if n = 0 then t else chargeCore s x dt t c n) s'

/-! ## Waiters -/

/-- R450: the timer of a waiter counts; a Device stop halts all issue (R788). -/
def waitCounts (s : State) (c : Nat) (x : Ctx) (w : Nat) : Bool :=
  s.owner == some x && !(s.cc c x).issueHalt && !(x == .d && s.fbit R.RNDSTAT_DHELD) && !s.stopped && (w == 6 || !busy s c w)

def ageWaits (s : State) (c : Nat) (x : Ctx) (dt : Nat) : State :=
  let h := s.cc c x
  let ws := h.waits.map fun e => if waitCounts s c x e.1 then (e.1, { e.2 with age := e.2.age + dt }) else e
  s.setCc c x { h with waits := ws }

/-- R186: engines in FULL that are idle with no issuable instruction leave FULL as time passes. Log entry 91, DEDUCED. -/
def settleEngines (s : State) : State :=
  (s.cores.map (·.1)).foldl (fun s c => pwrSettle (pwrSettle s c 0) c 1) s

/-- Every core that has waiters. -/
def ageAll (s : State) (dt : Nat) : State :=
  (s.cores.map (·.1)).foldl (fun s c => ageWaits (ageWaits s c .d dt) c .t dt) s

/-! ## Parties told to end their work (R797) -/

/-- R797: work of the party is in flight that it has been told to end. Log entry 77, DEDUCED. -/
def unstopped (s : State) (kind idx : Nat) : Bool :=
  match kind with
  | 0 =>
    (s.core idx).infl.any fun e =>
      e.2.told || s.stopped || (s.cc idx e.2.ctx).issueHalt || bitOf s.unloads (ctxNum e.2.ctx) ||
      (if e.1 < 2 then !s.fbit (R.WVCTL_ENABLE idx e.1) else e.1 == 2 && !s.fbit (R.VUCTL_ENABLE idx))
  | 1 =>
    let c := s.chan idx
    let drains := !bitOf s.fenceChans idx && !s.fbit (R.DMACTL_ENABLE idx)
    (c.flying.any fun b => b.told || drains) || ((readsOut s idx).any fun q => c.toldReads.contains q || drains) ||
      (drains && (match c.cur with | some r => !r.bursts.isEmpty | none => false))
  | _ => s.stopped && (s.port idx).tx.any fun q => !q.2.isEmpty
/-- The parties of which that holds, among those that State lists, by key. -/
def toldKeys (s : State) : List Nat :=
  let keys (kind : Nat) (l : List Nat) : List Nat := (l.filter (unstopped s kind)).map (fenceKey kind)
  keys 0 (s.cores.map (·.1)) ++ keys 1 (s.chans.map (·.1)) ++ keys 2 (s.ports.map (·.1))
/-- As time passes: such a party has been told now, or when it was noted. Log entry 77, DEDUCED. -/
def noteTold (s : State) : State :=
  { s with sec := { s.sec with toldAt := (toldKeys s).map fun k =>
    (k, some ((tget none s.sec.toldAt k).getD s.clk.tenths)) } }

/-! ## The passing of time -/

/-- dt tenths of a nanosecond pass: device time counts while the link reference clock is present (R45, R831), the
arithmetic clocks run at their present frequencies, unless a Grave fault has stopped them (R794).
Log entry 1, DESIGN CHOICE. -/
def elapse (s : State) (dt : Nat) : State :=
  if !s.clk.present then s
  else
    let s := noteTold (settleEngines s)
    let s1 := { s with clk := { s.clk with tenths := s.clk.tenths + dt } }
    let s2 := if s.grave then s1 else
      { s1 with cycles := [0, 1, 2, 3].foldl (fun t d =>
          tput 0 t d (tget 0 t d + dt * s.fget (R.VFSTAT_FREQ d))) s1.cycles }
    ageAll (chargeIdle s s2 dt) dt

/-- R45: the first count of the accumulator, in cycles of 6.4 ns, that is not before an instant in tenths of ns.
Log entry 3, DESIGN CHOICE. -/
def onGrid (t : Nat) : Nat := cdiv t 64 * 64
/-- Time goes forward to an instant, in tenths of a nanosecond, unless it has passed: to the first count of the
accumulator there or after it (R45, R83). Log entry 3, DESIGN CHOICE. -/
def pullTo (s : State) (t : Nat) : State :=
  if s.clk.tenths < onGrid t then elapse s (onGrid t - s.clk.tenths) else s

/-- A count of an idle counter at its limit (R677). -/
def execIdleCounterWrap (core : CoreId) (ctx : Ctx) (k : Fin 8) (s : State) : Host.Outcome State Fault Refusal :=
  ifAlive s (if (tget (0 : BitVec 48) (s.cc core ctx).idle k).toNat = 2 ^ 48 - 1 then idleAdd s core ctx k 1 else s)


end Sys2Proof.Machine
end

