-- ==== Sys2Proof/Machine/Windows.lean ====
section
/-! DEFINITION. Sys2Proof/Machine/Windows.lean: the windows of a Round (R49 to R75): their lengths, the check of marks at their
close, the switch between contexts, and the passing of time over their ends. -/

namespace Sys2Proof.Machine

/-! ## What the ledger unit takes at the close of a window (R559, R568) -/

def State.setLed (s : State) (l : Led) : State := { s with led := l }
/-- The lane counters of bank b, in lane order, and its done counter (R555, R556). -/
def laneCtrs (c : LedCfg) (b : Nat) : List Nat := (upto c.dcores.length).map fun i => c.lcBase + 2 * i + b
/-- The last element changed. -/
def updLast {α : Type} (f : α → α) : List α → List α
  | [] => []
  | [x] => [f x]
  | x :: r => x :: updLast f r
/-- Flags set in the open block. -/
def blockFlag (s : State) (m : Nat) : State :=
  s.setLed { s.led with blocks := updLast (fun b => { b with flags := b.flags ||| m }) s.led.blocks }
/-- R559: the close of a deadline window. -/
def ledgerWindowClosed (s : State) : State :=
  let l := s.led
  if !l.live then s
  else
    match l.batches.getLast? with
    | none => s
    | some b =>
      if b.rnd != s.round.num.toNat || b.done then s
      else s.setLed { l with batches := l.batches.map fun k =>
        if k.rnd = b.rnd then { k with snap := some ((laneCtrs l.cfg (b.rnd % 2)).map fun n => (s.ctr n).read.toNat) }
        else k }

/-! ## Windows (R49, R50) -/

/-- R50: the length in µs of window w under a period, deadline window and TWCNT; 0 for a window that Rounds lack. -/
def winLenOf (per dlen tw w : Nat) : Nat :=
  if w = 0 then dlen
  else if tw + 1 < w then 0
  else (per - dlen) / (tw + 1) + (if w = tw + 1 then (per - dlen) % (tw + 1) else 0)
def period (s : State) : Nat := s.fget R.RNDPER_PERIOD
def winLen (s : State) (w : Nat) : Nat := winLenOf (period s) (s.fget R.RNDWIN_DLEN) (s.fget R.RNDWIN_TWCNT) w
/-- µs from the boundary to the end of window w. -/
def winEnd (s : State) : Nat → Nat
  | 0 => winLen s 0
  | w + 1 => winEnd s w + winLen s (w + 1)
def lastWin (s : State) : Nat := s.fget R.RNDWIN_TWCNT + 1
/-- R49, R52: the window with which a Round opens. -/
def firstWin (s : State) : Nat := if s.fget R.RNDWIN_DLEN = 0 then 1 else 0

/-- R51, R52, R404 code 0x40: the Round budget of a manifest under given settings; the INDEX of the first record that does
not fit. -/
def budgetFail (per dlen tw : Nat) (x : Ctx) (recs : List Rec) : Option Nat :=
  if x = .d && dlen = 0 then some 0
  else (recs.find? fun r => r.typ == 0x40 && decide (winLenOf per dlen tw r.idx < r.v0 + 2)).map (·.idx)

/-! ## Window-end marks and overruns (R56 to R59, R71 to R75) -/

/-- The cores that the context's manifest names (records of type 0x03). -/
def namedCores (j : Job) : List Nat := (j.recs.filter (·.typ == 3)).map (·.idx)
def winCtx (w : Nat) : Ctx := if w = 0 then .d else .t
/-- R58: some core named has not retired its mark of window w. -/
def overran (s : State) (w : Nat) : Bool :=
  match s.job (winCtx w) with
  | none => false
  | some j => j.started && (namedCores j).any fun c => !bitOf (s.cc c (winCtx w)).marks w

/-- R71, R73, R74: an overrun of window w. -/
def overrun (s : State) (w : Nat) (inj : Bool) : State :=
  if w = 0 then
    let s := ((s.fset R.RNDSTAT_DOVR 1).bump R.DOVCNT).reportFrom .contained 0x07 0 0 .d 0xC 0 (s.endpoint 0) inj
    let s := if s.led.live then blockFlag s 8 else s
    if s.fbit R.RNDCTL_DOVSTOP then s.fset R.RNDSTAT_DHELD 1 else s
  else (s.fset R.RNDSTAT_TOVR 1).bump R.TOVCNT

/-- R58, R66: the check at the close of window w; the close of a deadline window also takes the lane snapshot (R559). -/
def checkMarks (s : State) (w : Nat) : State :=
  let s := if w = 0 then ledgerWindowClosed s else s
  let pr := if w = 0 then s.probe 0x07 0 [0] 0 else (none, s)
  if overran s w then overrun pr.2 w pr.1.isSome
  else if pr.1.isSome then overrun pr.2 w true
  else pr.2

/-- R64, R75: a switch to x that began at t0 is over, because the core opens or because its window closes: one longer than
2 µs is counted, and a deadline window is marked as opened late. -/
def switchOver (s : State) (x : Ctx) (t0 : Nat) : State :=
  if s.clk.tenths - t0 > 20000 then
    let s := s.bump R.SWLCNT
    if x == .d then s.fset R.RNDSTAT_LATEOPEN 1 else s
  else s
/-- The switches still pending when their window closes. -/
def switchesOver (s : State) : State :=
  s.cores.foldl (fun t e => match e.2.switch with | none => t | some (x, t0) => switchOver t x t0) s

/-- R60, R62: issue passes to another context. On a core with none of the outgoing context in flight the switch is
complete at once. Log entry 68, DEDUCED. -/
def startSwitch (s : State) (incoming : Ctx) : State :=
  let s := switchesOver s
  { s with cores := (s.cores.map (·.1)).foldl (fun t c =>
      let k := tget {} t c
      tput {} t c { k with
        switch := if k.infl.any (·.2.ctx == other incoming) then some (incoming, s.clk.tenths) else none }) s.cores }

/-- Window w opens after window `old`: a switch where the owner changes. -/
def openWin (s : State) (old : Option Nat) (w : Nat) : State :=
  let s := { s with round := { s.round with win := some w } }
  match old with
  | none => s
  | some o => if winCtx o = winCtx w then s else startSwitch s (winCtx w)

/-- R60: the open window's length expires, if it is not the last of its Round. -/
def windowBoundary (s : State) : State :=
  match s.round.win with
  | none => s
  | some w =>
    if lastWin s ≤ w then s
    else
      let s := pullTo s (s.round.stampTenths + winEnd s w * 10000)
      openWin (checkMarks s w) (some w) (w + 1)

/-! ## Time over the ends of windows -/

/-- R60, R66: the windows of the present Round that end by an instant close, except the last. -/
def passWindows (t : Nat) : Nat → State → State
  | 0, s => s
  | k + 1, s =>
    match s.round.win with
    | none => s
    | some w => if w < lastWin s && decide (s.round.stampTenths + winEnd s w * 10000 ≤ t) then passWindows t k (windowBoundary s)
      else s
/-- Time goes forward to an instant, unless it has passed, with the window boundaries on the way.
Log entry 70, DEDUCED. -/
def advanceTo (s : State) (t : Nat) : State :=
  if s.clk.present && decide (s.clk.tenths < onGrid t) then pullTo (if s.grave then s else passWindows t 4 s) t else s

/-- R499: an input's back-off ends once its B cycles have passed. Log entry 3, DESIGN CHOICE. -/
def execBackoffExpiry (port : ArbId) (input : Nat) (s : State) : Host.Outcome State Fault Refusal :=
  ifAlive s (match (s.arb port).resumeAt.find? (·.1 == input) with
    | none => s
    | some (_, t) =>
      let s := advanceTo s (5 * t)
      s.setArb port { s.arb port with resumeAt := tdel (s.arb port).resumeAt input })

end Sys2Proof.Machine
end

