-- ==== Sys2Proof/Machine/Train.lean ====
section
/-! DEFINITION. Sys2Proof/Machine/Train.lean: the step unit (R516 to R530), and the state of parameter returns
(R662 to R666). -/

namespace Sys2Proof.Machine

/-! ## Step-status words (R528, R530) -/

/-- R528: a step-status word; COPY does not enter comparisons. -/
def statusWord (tag : Nat) (skip : Bool) (reason lse app : Nat) : W64 :=
  BitVec.ofNat 64 (tag % 65536 * 2 ^ 48 + (if skip then 2 ^ 47 else 0) + reason % 4 * 2 ^ 45 + lse % 256 * 2 ^ 37 +
    app % 2 ^ 35)
def statusTag (w : W64) : Nat := bitsOf w.toNat 48 16
/-- SKIP, REASON, LSE and APPLIED. -/
def statusBody (w : W64) : Nat := bitsOf w.toNat 37 11 * 2 ^ 35 + bitsOf w.toNat 0 35

/-- R530: the comparison of an arriving word with the module's commit of its step. -/
def statusCompare (s : State) (own w : W64) : State :=
  let pr := s.probe 0x38 0 [2] 0
  if statusBody own = statusBody w && pr.1.isNone then s
  else
    ((pr.2.bump R.SSWMIS).fset R.STEPSTAT_DESYNC 1).reportFrom .contained 0x38 0 2 .t 0 0 (s.endpoint 0) pr.1.isSome
/-- R530: a step-status word arrives. -/
def statusArrive (s : State) (w : W64) : State :=
  match s.step.commits.find? fun c => statusTag c == statusTag w with
  | some own => statusCompare s own w
  | none => { s with step := { s.step with early := s.step.early ++ [w] } }

/-! ## Return entries (R664 to R666) -/

def State.ret (s : State) (k : Nat) : RetS := tget {} s.rets k
def State.setRet (s : State) (k : Nat) (r : RetS) : State := { s with rets := tput {} s.rets k r }
def retMcg (e : List Byte) : Nat := imgNat e 0 2 % 4096
def retCtr (e : List Byte) : Nat := imgNat e 2 2 % 16384
def retTo (e : List Byte) : Nat := imgNat e 4 4
def retSlot (e : List Byte) : Nat := imgNat e 8 8
def retBytes (e : List Byte) : Nat := imgNat e 16 8

/-- R665: the return word. -/
def returnWord (r : RetS) (complete stale : Bool) : Nat :=
  let w := match r.status with | some w => w.toNat | none => 0
  bitsOf w 48 16 * 2 ^ 48 + (if complete then 2 ^ 47 else 0) + (if stale then 2 ^ 46 else 0) + bitsOf w 35 2 * 2 ^ 44 +
    r.received % 2 ^ 40

/-- A write of a unit of the module itself to device memory. -/
def unitWrite (s : State) (a : Nat) (bs : List Byte) (bad : List Nat) : State :=
  devWrite (devTouch s none 0 ((upto bs.length).map (· + a)) (s.endpoint 0)) (cellsAt a bs) bad

/-- R664: the status is latched and the payload is in, or none follows. -/
def retDone (e : List Byte) (r : RetS) : Bool :=
  match r.status with
  | none => false
  | some w => bitsOf w.toNat 35 2 == 3 || decide (retBytes e ≤ r.received)

/-- R665: the entry completes. -/
def retComplete (s : State) (k : Nat) : State :=
  let e := retEnt s k
  let r := s.ret k
  let s := unitWrite (s.setRet k { r with complete := true }) (retSlot e + 8) (leBytes 8 (returnWord r true false)) []
  (ctrAdd s (retCtr e) 1 (s.endpoint 0)).bump R.RETDONE

/-- R664: an MCWRITE of group g delivered into the module, at one return entry. -/
def retSee (s : State) (g addr : Nat) (bs : List Byte) (k : Nat) : State :=
  let e := retEnt s k
  let r := s.ret k
  if retMcg e != g || !r.armed || r.stale then s
  else
    let isStatus := addr == retSlot e && bs.length == 8
    let w : W64 := BitVec.ofNat 64 (ofLe bs)
    let r := if isStatus then { r with status := some w } else { r with received := r.received + bs.length }
    let s := s.setRet k r
    let s := if isStatus then statusArrive s w else s
    if retDone e r && !r.complete then retComplete s k else s
def retsSee (s : State) (g addr : Nat) (bs : List Byte) : State :=
  (s.retEnts.map (·.1)).foldl (fun s k => retSee s g addr bs k) s

/-- R664: every entry is armed at the trigger. -/
def armReturns (s : State) : State := (s.retEnts.map (·.1)).foldl (fun s k => s.setRet k { armed := true }) s

/-- R666: RETTO µs have passed since the module's commit. -/
def execReturnStale (ent : RetId) (s : State) : Host.Outcome State Fault Refusal :=
  ifAlive s (
    let e := retEnt s ent
    let r := s.ret ent
    if e.isEmpty || !r.armed || r.complete || r.stale || !s.step.committed || s.step.voteAt.isSome then s
    else
      let pr := s.probe 0x43 ent [0] 0
      let s := if pr.1.isSome then pr.2 else advanceTo s (s.tenthsAt (s.step.commitAt + retTo e * 1000))
      let s := unitWrite (s.setRet ent { r with stale := true }) (retSlot e + 8) (leBytes 8 (returnWord r false true)) []
      ((ctrAdd s (retCtr e) 1 (s.endpoint 0)).bump R.RETSTALE).reportFrom .notice 0x43 ent 0
        (optParty (if s.loaded .t then some .t else none)) 0xC 0 (s.endpoint 0) pr.1.isSome)

/-! ## Commit (R521 to R523) -/

/-- R523: the payload of a step notice. -/
def noticeWord (tag : Nat) (skip : Bool) (reason lse app : Nat) : Nat :=
  tag % 65536 * 2 ^ 46 + (if skip then 2 ^ 45 else 0) + reason % 4 * 2 ^ 43 + lse % 256 * 2 ^ 35 + app % 2 ^ 35

/-- The cores named in NOTECORES (R547). Log entry 52, DEDUCED. -/
def noteCores (s : State) : List Nat := bitList 128 (s.wideGet 3 0x10 + s.wideGet 3 0x11 * 2 ^ 64)

/-- R523: a notice for one core; a queue the core does not have drops it as unowned. -/
def postNotice (s : State) (w : Nat) (c : Nat) : State :=
  match mqPhys s c .t (s.fget R.STEPCFG2_MQ) with
  | some q => deliver s c q [(w, false)] (s.endpoint 0)
  | none => (s.bump (R.MQDROPN c)).report .notice 0x2A c 1 .none 7 0

/-- R521 step 3: the loss scale and the clean-step count after a verdict. Log entry 52, DEDUCED. -/
def lossStep (s : State) (reason : Nat) : State :=
  let lse := signedOf (s.fget R.LSSTAT_LSE) 8
  let run := s.fget R.LSSTAT_RUNCNT
  let put (s : State) (e : Int) (r : Nat) : State :=
    (s.fset R.LSSTAT_LSE (e % 256).toNat).fset R.LSSTAT_RUNCNT r
  let lsMin := signedOf (s.fget R.LSCFG_LSMIN) 8
  if reason = 1 then
    let s := put s (max (lse - 1) lsMin) 0
    if lse ≤ lsMin then s.bump R.LSFLOOR else s
  else if reason = 0 then
    if (run + 1) % 65536 = s.fget R.LSRUN_RUN then put s (min (lse + 1) (signedOf (s.fget R.LSCFG_LSMAX) 8)) 0
    else put s lse ((run + 1) % 65536)
  else s

/-- R521: the actions of a commit, in order. Log entry 52, DEDUCED. -/
def commitStep (s : State) (reason : Nat) : State :=
  let skip := reason != 0
  let tag := s.step.num.toNat % 65536
  let app := if skip then s.step.app else s.step.app + 1
  let s := { s with step := { s.step with num := s.step.num + 1, app := app, voteAt := none, result := none } }
  let s := lossStep s reason
  let lse := s.fget R.LSSTAT_LSE
  let s := { s with lsLatch := (noteCores s).foldl (fun t c => tput 0x0F#8 t c (BitVec.ofNat 8 lse)) s.lsLatch }
  let s := (noteCores s).foldl (fun s c => postNotice s (noticeWord tag skip reason lse app.toNat) c) s
  let s := if s.fbit R.STEPCFG2_NOTESIG then ctrAdd s (s.fget R.STEPCFG0_NOTECTR) 1 (s.endpoint 0) else s
  let s := if reason = 1 then s.bump R.STSKIPNF else if reason = 2 then s.bump R.STSKIPVS else s
  let s := (s.fset R.STEPSTAT_LASTSKIP (if skip then 1 else 0)).fset R.STEPSTAT_LASTREASON reason
  let own := statusWord tag skip reason lse app.toNat
  let early := s.step.early
  let s := { s with step := { s.step with
    commitAt := s.now, committed := true
    commits := own :: (s.step.commits.filter fun w => statusTag w != tag).take 32767
    early := early.filter fun w => statusTag w != tag } }
  (early.filter fun w => statusTag w == tag).foldl (fun s w => statusCompare s own w) s

/-- R522: the vote is missing. Log entry 52, DEDUCED. -/
def voteMissing (s : State) (inj : Bool) : State :=
  ((commitStep ((s.fset R.STEPSTAT_VMISS 1).fset R.STEPSTAT_DESYNC 1) 2)).reportFrom .contained 0x38 0 1 .t 0xC 0
    (s.endpoint 0) inj

/-- R520, R521: the vote's result has arrived. Log entry 52, DEDUCED. -/
def execStepCommit (s : State) : Host.Outcome State Fault Refusal :=
  ifAlive s (match s.step.result, s.step.voteAt with
    | some (v, c), some _ =>
      let pr := s.probe 0x38 0 [1] 0
      if pr.1.isSome then voteMissing pr.2 true
      else commitStep s (if v != 0 then 1 else if c < s.fget R.STEPCFG1_NVOTE then 2 else 0)
    | _, _ => s)

/-- R522: VTO Rounds have passed since the vote was sent; one that still waits for its turn as a local send has not been.
Log entry 52, DEDUCED. -/
def execVoteTimeout (s : State) : Host.Outcome State Fault Refusal :=
  ifAlive s (match s.step.result, s.step.voteAt with
    | none, some n =>
      if !s.sendPend.contains (.t, s.fget R.STEPCFG2_VGRP) && decide (n.toNat + s.fget R.STEPCFG2_VTO ≤ s.round.num.toNat) then
        let r := s.check 0x38 0 [1] 0 (fun _ => false) (some 1)
        voteMissing r.2.2 r.2.1
      else s
    | _, _ => s)

def execStepctlEnable (req : Req) (on : Bool) (s : State) : Host.Outcome State Fault Refusal :=
  enable s req R.STEPCTL_ENABLE on

/-- R519: the indication of a step-checked result. -/
def stepChecked (s : State) (tag : Nat) (nf : Bool) : State :=
  if !s.loaded .t then s
  else if tag = s.step.num.toNat % 65536 then (if nf then s.fset R.STEPSTAT_NFACC 1 else s)
  else s.bump R.NFSTRAY

/-- R660: the vote group's sum reaches the step unit. -/
def voteResult (s : State) (v : W32) (c : Nat) : State :=
  if s.step.voteAt.isSome && s.step.result.isNone then { s with step := { s.step with result := some (v, c) } } else s

end Sys2Proof.Machine
end

