-- ==== Sys2Proof/Machine/Collect.lean ====
section
/-! DEFINITION. Sys2Proof/Machine/Collect.lean: group entries, bindings, local sends, the link adders, instances and their
delivery (R632 to R661, R678 to R682), and the trigger of the step unit (R520). -/

namespace Sys2Proof.Machine

/-! ## Group entries (R632 to R635) -/

/-- A group entry: where it stands and its three words. -/
structure GEnt where
  iod : Nat
  tbl : Nat
  grp : Nat
  w0 : Nat
  w1 : Nat
  w2 : Nat
deriving DecidableEq, Repr

def GEnt.valid (e : GEnt) : Bool := bitOf e.w0 31
def GEnt.root (e : GEnt) : Bool := bitOf e.w0 30
def GEnt.ar (e : GEnt) : Bool := bitOf e.w0 29
def GEnt.tagk (e : GEnt) : Bool := bitOf e.w0 28
/-- The module-wide port whose adder serves the group. -/
def GEnt.adder (e : GEnt) : Nat := e.iod * 12 + bitsOf e.w0 24 4
def GEnt.up (e : GEnt) : Nat := bitsOf e.w0 19 5
def GEnt.upalt (e : GEnt) : Option Nat := if bitOf e.w0 18 then some (bitsOf e.w0 13 5) else none
def GEnt.cutoff (e : GEnt) : Nat := bitsOf e.w1 16 16
def GEnt.inmask (e : GEnt) : Nat := bitsOf e.w1 0 14
def GEnt.child (e : GEnt) : Nat := bitsOf e.w2 20 12
def GEnt.cloc (e : GEnt) : Bool := bitOf e.w2 19
def GEnt.cpeer (e : GEnt) : Bool := bitOf e.w2 18

def gentry (s : State) (iod tbl g : Nat) : GEnt :=
  ⟨iod, tbl, g, groupWord s iod tbl g 0, groupWord s iod tbl g 1, groupWord s iod tbl g 2⟩

def State.inst (s : State) (iod tbl g : Nat) : Inst := tget {} s.insts (tblKey iod tbl g 4096)
def State.setInst (s : State) (iod tbl g : Nat) (i : Inst) : State :=
  { s with insts := tput {} s.insts (tblKey iod tbl g 4096) i }

/-! ## Fields of RED flits (R594) -/

def Flit.grp (f : Flit) : Nat := hf f.hdr 76 12
def Flit.rtag (f : Flit) : Nat := hf f.hdr 60 16
def Flit.cnt (f : Flit) : Nat := hf f.hdr 44 16
def Flit.fmt32 (f : Flit) : Bool := bitOf f.hdr.toNat 43
def Flit.off (f : Flit) : Nat := hf f.hdr 16 27

/-- A list in groups of n. -/
def chunk (n : Nat) (l : List Byte) (k : Nat) : List (List Byte) := (upto k).map fun j => (l.drop (n * j)).take n
/-- R640, R643: the slots a flit feeds, with 60 FP32 elements each; BF16 widens exactly. -/
def Flit.feeds (f : Flit) : List (Nat × List W32) :=
  if f.fmt32 then [(f.off, (chunk 4 f.payload 60).map fun b => BitVec.ofNat 32 (ofLe b))]
  else
    let es := (chunk 2 f.payload 120).map fun b => BitVec.ofNat 32 (ofLe b * 65536)
    [(f.off, es.take 60), (f.off + 1, es.drop 60)]
/-- R647: a slot as a flit. -/
def redFlit (epoch grp tag cnt off : Nat) (poison : Bool) (es : List W32) : Flit :=
  ⟨mkHdr 9 2 epoch poison 0 (specRed grp tag cnt 1 off), fitBytes 240 (es.flatMap fun e => leBytes 4 e.toNat), none⟩

/-! ## Bindings (R637, R638) -/

/-- The binding that serves a group entry: that of the context whose reduction groups hold the number. -/
def bindOf (s : State) (iod g : Nat) : List Byte :=
  match groupOwner s iod g with
  | none => []
  | some x => binding s x g
def bNelem (b : List Byte) : Nat := imgNat b 0x04 4
def bSrc (b : List Byte) : Nat := imgNat b 0x08 8
def bRes (b : List Byte) : Nat := imgNat b 0x10 8
def bCnt (b : List Byte) : Nat := imgNat b 0x18 8
def bTrigCtr (b : List Byte) : Nat := imgNat b 0x20 2 % 16384
def bTrigThr (b : List Byte) : Nat := imgNat b 0x22 2
def bSentCtr (b : List Byte) : Nat := imgNat b 0x24 2 % 16384
def bDoneCtr (b : List Byte) : Nat := imgNat b 0x26 2 % 16384
def bExp (b : List Byte) : Nat := imgNat b 0x28 2
def bRetOff (b : List Byte) : Nat := imgNat b 0x2C 4
def bDoneSig (b : List Byte) : Bool := bndBit b 8
def bSentSig (b : List Byte) : Bool := bndBit b 7
def bIod (b : List Byte) : Nat := if bndBit b 6 then 1 else 0
def bSchk (b : List Byte) : Bool := bndBit b 5
def bDelSu (b : List Byte) : Bool := bndBit b 4
def bDeliv (b : List Byte) : Bool := bndBit b 3
def bSrcSu (b : List Byte) : Bool := bndBit b 2
def bFp32 (b : List Byte) : Bool := bndBit b 1
def bLsend (b : List Byte) : Bool := bndBit b 0
/-- The number of offsets of the vector. -/
def bNoff (b : List Byte) : Nat := cdiv (bNelem b) 60

/-! ## Delivery (R653 to R656, R659) -/

/-- R653: the words and the count of an offset are written; the words of a poisoned slot are written as poisoned. -/
def putOffset (s : State) (b : List Byte) (off : Nat) (es : List W32) (cnt : Nat) (poison : Bool) : State :=
  let bs := (es.take (min 60 (bNelem b - 60 * off))).flatMap fun e => leBytes 4 e.toNat
  let a := bRes b + 240 * off
  unitWrite (unitWrite s a bs (if poison then wordsOf a bs.length else [])) (bCnt b + 2 * off) (leBytes 2 cnt) []

def nonFinite (w : W32) : Bool := bitsOf w.toNat 23 8 == 255

/-- R655, R656: what a delivered offset adds to the result record. -/
def Deliv.add (d : Deliv) (b : List Byte) (off : Nat) (es : List W32) (cnt : Nat) (poison : Bool) : Deliv :=
  { d with
    got := nins d.got off, minCnt := min d.minCnt cnt, maxCnt := max d.maxCnt cnt
    nf := d.nf || poison || (es.take (min 60 (bNelem b - 60 * off))).any nonFinite
    poison := d.poison || poison, empty := d.empty || cnt == 0, short := d.short || decide (cnt < bExp b) }

def nanOffset : List W32 := List.replicate 60 0x7FC00000#32
/-- R654: the offsets never delivered are written. -/
def putMissing (s : State) (b : List Byte) (d : Deliv) : State × Deliv :=
  let miss := (upto (bNoff b)).filter fun k => !d.got.contains k
  let s := miss.foldl (fun s k => putOffset s b k nanOffset 0 false) s
  (s.bumpBy R.REDEMPTY miss.length,
   miss.foldl (fun d k => d.add b k nanOffset 0 false) { d with nEmpty := miss.length })

/-- R655: the result record. -/
def resultRecord (b : List Byte) (d : Deliv) (ret : Bool) : List Byte :=
  let flags := (if d.nf then 1 else 0) + (if d.short then 2 else 0) + (if d.empty then 4 else 0) +
    (if d.poison then 8 else 0) + (if d.cut then 16 else 0) + (if ret then 32 else 0)
  leBytes 2 d.tag ++ leBytes 2 d.stepTag ++ leBytes 2 flags ++ leBytes 2 d.minCnt ++ leBytes 2 d.maxCnt ++ leBytes 2 0 ++
    leBytes 4 (bNoff b) ++ leBytes 4 d.nEmpty ++ leBytes 4 d.nLate ++ leBytes 8 d.closedAt ++ leBytes 32 0
/-- R655: record, signal and count, after the last delivery write. Sums that go to the step unit leave no record. -/
def putRecord (s : State) (b : List Byte) (d : Deliv) (ret : Bool) : State :=
  let s := if bDelSu b then s
    else unitWrite s (bCnt b + cdiv (2 * bNoff b) 64 * 64) (resultRecord b d ret) []
  let s := if bDoneSig b then ctrAdd s (bDoneCtr b) 1 (s.endpoint 0) else s
  if d.short then s.bump R.REDSHORT else s

/-- A root instance that waits for its record gets it. -/
def flushClosing (s : State) (iod tbl g : Nat) : State :=
  let i := s.inst iod tbl g
  match i.closing with
  | none => s
  | some d => putRecord (s.setInst iod tbl g { i with closing := none }) (bindOf s iod g) d false

def slotsOf (s : State) (n : Nat) : List ASlot := tget [] s.adders n
def setSlots (s : State) (n : Nat) (l : List ASlot) : State := { s with adders := tput [] s.adders n l }
/-- The slot is one of the instance of a tag at an entry (R643). -/
def ASlot.of (x : ASlot) (e : GEnt) (tag : Nat) : Bool :=
  x.iod == e.iod && x.tbl == e.tbl && x.grp == e.grp && x.tag == tag
def ASlot.at (x : ASlot) (e : GEnt) (tag off : Nat) : Bool := x.of e tag && x.off == off

/-- R654, R656: a root instance closes, and what slots it still holds are freed; its record waits for the last write. -/
def closeRoot (s : State) (e : GEnt) (d : Deliv) (cut : Bool) : State :=
  let b := bindOf s e.iod e.grp
  let s := flushClosing s e.iod e.tbl e.grp
  let s := setSlots s e.adder ((slotsOf s e.adder).filter fun y => !y.of e d.tag)
  let done := { s.inst e.iod e.tbl e.grp with opn := none, mask := 0, removed := 0, last := some d.tag }
  if !bDeliv b then s.setInst e.iod e.tbl e.grp done
  else if bDelSu b then
    let s := s.setInst e.iod e.tbl e.grp { done with closing := some { d with cut := cut, closedAt := s.now } }
    if bSchk b then stepChecked s d.stepTag d.nf else s
  else
    let r := putMissing s b d
    let d := { r.2 with cut := cut, closedAt := s.now }
    let s := r.1.setInst e.iod e.tbl e.grp { done with closing := some d }
    if bSchk b then stepChecked s d.stepTag d.nf else s

/-- R653, R660: where a delivered offset goes: to the step unit, or to memory. -/
def putSum (s : State) (b : List Byte) (off : Nat) (es : List W32) (cnt : Nat) (poison : Bool) : State :=
  if bDelSu b then voteResult s (es.headD 0) cnt else putOffset s b off es cnt poison

/-- R653, R660: a complete slot is delivered at a root. Log entry 49, DEDUCED. -/
def deliverRoot (s : State) (e : GEnt) (x : ASlot) : State :=
  let b := bindOf s e.iod e.grp
  let i := s.inst e.iod e.tbl e.grp
  match i.opn with
  | none => s
  | some d =>
    if !bDeliv b || bNoff b ≤ x.off then s
    else
      let s := s.setInst e.iod e.tbl e.grp { i with opn := some (d.add b x.off x.elems x.cnt x.poison) }
      putSum s b x.off x.elems x.cnt x.poison

/-- R654: the root closes as soon as every offset is delivered. -/
def closeIfFull (s : State) (e : GEnt) : State :=
  match (s.inst e.iod e.tbl e.grp).opn with
  | none => s
  | some d => if e.root && bDeliv (bindOf s e.iod e.grp) && d.got.length == bNoff (bindOf s e.iod e.grp) then closeRoot s e d false else s

/-! ### All-reduce returns (R658, R659) -/

def retKey (g tag : Nat) : Nat := g * 65536 + tag % 65536
/-- The return of an instance that is open at this member. -/
def openAt (s : State) (g tag : Nat) : Option Deliv := (s.returns.find? (·.1 == retKey g tag)).map (·.2)
/-- The tag is that of a return of the group that has closed, or precedes it. -/
def hasReturned (s : State) (g tag : Nat) : Bool :=
  let last := tget 0 s.returned g
  last != 0 && (last - 1 == tag || tagPrecedes tag (last - 1))
/-- R659: a return closes: what never arrived is written, then the record, the signal and the count. -/
def closeReturn (s : State) (iod g : Nat) (d : Deliv) (cut : Bool) : State :=
  let b := bindOf s iod g
  let r := if bDelSu b then (s, d) else putMissing s b d
  let d := { r.2 with cut := cut, closedAt := s.now }
  putRecord { r.1 with
    returns := tdel r.1.returns (retKey g d.tag)
    returned := if hasReturned s g d.tag then r.1.returned else tins r.1.returned g (d.tag + 1) } b d true

/-- The return of an instance tag opens at a member, if it is none that has closed. Log entry 49, DEDUCED. -/
def openReturn (s : State) (g tag : Nat) : State :=
  if (openAt s g tag).isSome || hasReturned s g tag then s
  else { s with returns := tins s.returns (retKey g tag) { tag := tag } }

/-- R658 to R660: a down flit is delivered into the module. Log entry 49, DEDUCED. -/
def memberDeliver (s : State) (iod : Nat) (f : Flit) : State :=
  let g := f.grp
  let b := bindOf s iod g
  if !bDeliv b then s
  else
    f.feeds.foldl (fun s p =>
      match openAt s g f.rtag with
      | none => s
      | some d =>
        if bNoff b ≤ p.1 then s
        else
          let d := d.add b p.1 p.2 f.cnt f.poison
          let s := putSum { s with returns := tins s.returns (retKey g d.tag) d } b p.1 p.2 f.cnt f.poison
          if d.got.length = bNoff b then closeReturn s iod g d false else s) (openReturn s g f.rtag)

/-! ## Reduction flits inside an I/O die (R634 to R650, R658) -/

/-- What crosses to the other I/O die: a state and a flit arriving there over the bridge. -/
abbrev Bridge := State → Nat → Flit → State

/-- A copy for a port of the I/O die, discarded when the port is not ACTIVE. -/
def copyOut (s : State) (n : Nat) (f : Flit) : State := if portOpen s n then txPut s n f else s.bump R.RTDOWN

/-- R658: a down flit at an entry. -/
def downFlit (peer : Bridge) (s : State) (e : GEnt) (f : Flit) : State :=
  let s := if e.cloc then memberDeliver s e.iod f else s
  let s := (bitList 12 e.child).foldl (fun s p => copyOut s (e.iod * 12 + p) f) s
  if e.cpeer then peer s (1 - e.iod) f else s

/-- R647, R608, R661: a flit leaves toward the root. -/
def upFlit (peer : Bridge) (s : State) (e : GEnt) (f : Flit) : State :=
  let fail := decide (e.up < 12) && s.fbit (R.LNKSTAT_FAILOVER (e.iod * 12 + e.up))
  let out := if fail then e.upalt.getD e.up else e.up
  let n := e.iod * 12 + out
  if out < 12 then (if portOpen s n then txPut s n f else s.bump R.RTDOWN)
  else if out = 17 then peer s (1 - e.iod) f
  else s.bump R.RTDOWN

/-- R647, R653, R658: a slot is emitted and freed. -/
def emitSlot (peer : Bridge) (s : State) (e : GEnt) (tag : Nat) (x : ASlot) : State :=
  let s := setSlots s e.adder ((slotsOf s e.adder).filter fun y => !y.at e tag x.off)
  let f := redFlit e.tbl e.grp tag x.cnt x.off x.poison x.elems
  if !e.root then upFlit peer s e f
  else
    let s := deliverRoot s e x
    if e.ar then downFlit peer s e f else s

/-- R650, R655: the open instance is closed, as at its cut-off, with what its slots hold. -/
def closeInstance (peer : Bridge) (s : State) (e : GEnt) : State :=
  match (s.inst e.iod e.tbl e.grp).opn with
  | none => s
  | some d =>
    let s := ((slotsOf s e.adder).filter (·.of e d.tag)).foldl (fun s x => emitSlot peer s e d.tag x) s
    let i := s.inst e.iod e.tbl e.grp
    match i.opn with
    | none => s
    | some d =>
      if e.root then closeRoot s e d true
      else s.setInst e.iod e.tbl e.grp { i with opn := none, mask := 0, removed := 0, last := some d.tag }

/-- R647, R654: slots whose masks cover the effective mask are emitted, in the order in which they were opened; a root that
has then delivered every offset closes. -/
def emitComplete (peer : Bridge) (s : State) (e : GEnt) : State :=
  let i := s.inst e.iod e.tbl e.grp
  match i.opn with
  | none => s
  | some d =>
    closeIfFull (((slotsOf s e.adder).filter fun x => x.of e d.tag && x.mask &&& i.mask == i.mask).foldl
      (fun s x => emitSlot peer s e d.tag x) s) e

/-- The boundary `k` Rounds before the present Round's; a Round before the first counts as one of PERIOD.
Log entry 49, DEDUCED. -/
def roundStart (s : State) (k : Nat) : Nat :=
  (s.round.stampTenths :: s.round.past).getD k
    ((s.round.stampTenths :: s.round.past).getLastD 0 - (k - s.round.past.length) * s.fget R.RNDPER_PERIOD * 10000)
/-- The instant of a µs count after the boundary that begins the Round of a tag (R650, R659), unless that Round has not
begun. Log entry 49, DEDUCED. -/
def afterRound (s : State) (tag us : Nat) : Option Nat :=
  if tagFollows tag s.rtag then none else some (roundStart s (tagDiff s.rtag tag) + us * 10000)
/-- R648: the cut-off of a tag has passed. -/
def cutPassed (s : State) (e : GEnt) (tag : Nat) : Bool :=
  !e.tagk &&
  match afterRound s tag e.cutoff with
  | none => false
  | some t => decide (t ≤ s.clk.tenths)

/-- R648, R649: a late flit. -/
def redLate (s : State) (e : GEnt) (f : Flit) : State :=
  let s := (s.bump R.REDLATE).bumpBy R.REDLATEC f.cnt
  let i := s.inst e.iod e.tbl e.grp
  match i.opn with
  | none => s
  | some d => s.setInst e.iod e.tbl e.grp { i with opn := some { d with nLate := d.nLate + f.cnt } }

/-- R643, R786: the storage check of an adder slot that is read, the i-th in use, of 60 elements.
Log entry 18, DEDUCED. -/
def slotCheck (s : State) (e : GEnt) (i : Nat) : Bool × State :=
  let pr := s.probeIn 0x1C e.adder [1, 2] (60 * i) fun a => a / 60 == i
  match pr.1 with
  | none => (false, s)
  | some (k, a) =>
    let own := groupOwner s e.iod e.grp
    (k == 2, pr.2.reportFrom (if k = 1 then .corrected else if own.isSome then .contained else .notice) 0x1C e.adder k
      (optParty own) 5 a (s.endpoint 0) true)

def addWord (a b : W32) : W32 := BitVec.ofNat 32 (add32 (of32 a.toNat) (of32 b.toNat)).1.bits32

/-- R644: one slot takes a flit's elements. -/
def feedSlot (s : State) (e : GEnt) (input : Nat) (f : Flit) (p : Nat × List W32) : State :=
  let l := slotsOf s e.adder
  match l.find? (·.at e f.rtag p.1) with
  | none => setSlots s e.adder (l ++ [⟨e.iod, e.tbl, e.grp, f.rtag, p.1, p.2, f.cnt, 2 ^ input, f.poison⟩])
  | some x =>
    let c := slotCheck s e (l.findIdx (·.at e f.rtag p.1))
    let x' := { x with
      elems := (x.elems.zip p.2).map fun q => addWord q.1 q.2
      cnt := (x.cnt + f.cnt) % 65536, mask := x.mask ||| 2 ^ input, poison := x.poison || f.poison || c.1 }
    setSlots c.2 e.adder (l.map fun y => if y.at e f.rtag p.1 then x' else y)

/-- R644 to R647, R649: a flit of the open instance, late when its input has been removed from it. -/
def sumFlit (peer : Bridge) (s : State) (e : GEnt) (input : Nat) (f : Flit) : State :=
  let i := s.inst e.iod e.tbl e.grp
  if bitOf i.removed input then redLate s e f
  else
    let held := (slotsOf s e.adder).any fun x => bitOf x.mask input && f.feeds.any fun p => x.at e f.rtag p.1
    let pr := s.probe 0x42 e.adder [1] 0
    if held || pr.1.isSome then
      (pr.2.bump R.REDDUP).reportFrom .notice 0x42 e.adder 1 (optParty (groupOwner s e.iod e.grp)) 8 0 (s.endpoint 0)
        pr.1.isSome
    else emitComplete peer (f.feeds.foldl (fun s p => feedSlot s e input f p) s) e

/-- R648: the effective mask of an instance that opens. -/
def effMask (s : State) (e : GEnt) : Nat :=
  (upto 14).foldl (fun m k =>
    if bitOf e.inmask k && (decide (12 ≤ k) || portActive s (e.iod * 12 + k)) then m + 2 ^ k else m) 0

def openInstance (s : State) (e : GEnt) (tag : Nat) : State :=
  s.setInst e.iod e.tbl e.grp { s.inst e.iod e.tbl e.grp with
    opn := some { tag := tag, stepTag := s.step.num.toNat % 65536 }, mask := effMask s e, removed := 0 }

/-- R648: the tag of a flit is LASTTAG or precedes it. -/
def lateTag (s : State) (e : GEnt) (t : Nat) : Bool :=
  match (s.inst e.iod e.tbl e.grp).last with
  | none => false
  | some l => l == t || tagPrecedes t l
/-- R648: a flit of a later tag, where TAGK is 1, closes the open instance and opens its own, which frees slots before it
needs one. -/
def turnOver (peer : Bridge) (s : State) (e : GEnt) (t : Nat) : State :=
  match (s.inst e.iod e.tbl e.grp).opn with
  | none => s
  | some d =>
    if e.tagk && d.tag != t && !(lateTag s e t || tagPrecedes t d.tag) then openInstance (closeInstance peer s e) e t else s

/-- R648: an up flit at its entry. Log entry 49, DEDUCED. -/
def upArrive (peer : Bridge) (s : State) (e : GEnt) (input : Nat) (f : Flit) : State :=
  let t := f.rtag
  match (s.inst e.iod e.tbl e.grp).opn with
  | some d =>
    if d.tag = t then sumFlit peer s e input f
    else if lateTag s e t || tagPrecedes t d.tag || cutPassed s e t then redLate s e f
    else if !e.tagk then
      let pr := s.probe 0x42 e.adder [2] 0
      (pr.2.bump R.REDEARLY).reportFrom .notice 0x42 e.adder 2 (optParty (groupOwner s e.iod e.grp)) 8 0 (s.endpoint 0)
        pr.1.isSome
    else sumFlit peer (turnOver peer s e t) e input f
  | none =>
    if lateTag s e t || cutPassed s e t then redLate s e f
    else sumFlit peer (openInstance s e t) e input f

/-- R635: an input is the output toward the root. -/
def isDown (e : GEnt) (input : Nat) : Bool :=
  let same (o : Nat) : Bool := (o == input && decide (input < 12)) || (o == 17 && input == 12)
  !e.root && (same e.up || match e.upalt with | some o => same o | none => false)

/-- R646: an up flit needs more new slots than are free. -/
def slotsShort (s : State) (e : GEnt) (f : Flit) : Bool :=
  let l := slotsOf s e.adder
  let need := (f.feeds.filter fun p => !l.any (·.at e f.rtag p.1)).length
  decide (2048 < l.length + need)
/-- The flit would be summed if there were room. -/
def wouldSum (s : State) (e : GEnt) (input : Nat) (f : Flit) : Bool :=
  let i := s.inst e.iod e.tbl e.grp
  match i.opn with
  | some d => d.tag == f.rtag && !bitOf i.removed input
  | none => !(lateTag s e f.rtag || cutPassed s e f.rtag)

/-- R634 to R636: a RED flit at an I/O die; the entry's table is that of its EPOCH, and the bridge is crossed at most
`fuel` times. A flit stays behind one that waits for a slot on its input (R646). -/
def red : Nat → State → Nat → Nat → Flit → State
  | 0, s, _, _, _ => s
  | k + 1, s, iod, input, f =>
    let peer : Bridge := fun s i f => red k s i 12 f
    let c := tableCheck s iod 1 f.grp (groupOwner s iod f.grp) (f.master s)
    let e := gentry c.2 iod (tableOf s f.epoch) f.grp
    if s.redWait.any fun w => w.1 == iod && w.2.1 == input then
      { s with redWait := s.redWait ++ [(iod, input, f)] }
    else
      let s := c.2
      let routed (s : State) : State := countStale s f.epoch
      if c.1 || !e.valid then (routed s).bump R.REDMISS
      else if isDown e input then downFlit peer (routed s) e f
      else
        let s := turnOver peer s e f.rtag
        if wouldSum s e input f && slotsShort s e f then
          { s.bump R.REDSLOTW with redWait := s.redWait ++ [(iod, input, f)] }
        else upArrive peer (routed s) e input f

/-- The waiting flit that can go on: the first of its input whose adder has room. -/
def readyWait (s : State) : List (Nat × Nat × Flit) → List (Nat × Nat × Flit) →
    Option ((Nat × Nat × Flit) × List (Nat × Nat × Flit))
  | _, [] => none
  | before, w :: r =>
    let e := gentry s w.1 (tableOf s w.2.2.epoch) w.2.2.grp
    if !(before.any fun b => b.1 == w.1 && b.2.1 == w.2.1) &&
       !(wouldSum s e w.2.1 w.2.2 && slotsShort s e w.2.2) then some (w, before ++ r)
    else readyWait s (before ++ [w]) r
/-- R646: flits that waited for slots go on, and those behind them on their input, of which the first that finds none free
is counted as it comes to the head. Log entry 50, DESIGN CHOICE. -/
def retryWaits : Nat → State → State
  | 0, s => s
  | k + 1, s =>
    match readyWait s [] s.redWait with
    | none => s
    | some ((iod, input, f), rest) =>
      let later := rest.filter fun w => w.1 == iod && w.2.1 == input
      let others := rest.filter fun w => !(w.1 == iod && w.2.1 == input)
      let s := red 4 { s with redWait := others } iod input f
      retryWaits k (later.foldl (fun s w => red 4 s w.1 w.2.1 w.2.2) s)

/-- A RED flit enters an I/O die, and waiting flits go on if it freed slots. Log entry 50, DESIGN CHOICE. -/
def redArrive (s : State) (iod input : Nat) (f : Flit) : State :=
  let s := red 4 s iod input f
  retryWaits s.redWait.length s

def bridge : Bridge := fun s i f => red 3 s i 12 f

/-- R649: a port input leaves every open instance of its I/O die. Log entry 49, DEDUCED. -/
def removeInput (s : State) (n : Nat) : State :=
  let iod := n / 12
  let keys := (s.insts.filter fun p => p.1 / 8192 == iod && p.2.opn.isSome).map (·.1)
  let s := keys.foldl (fun s key =>
    let tbl := key / 4096 % 2
    let g := key % 4096
    let i := s.inst iod tbl g
    let s := s.setInst iod tbl g { i with
      mask := if bitOf i.mask (n % 12) then i.mask - 2 ^ (n % 12) else i.mask, removed := i.removed ||| 2 ^ (n % 12) }
    emitComplete bridge s (gentry s iod tbl g)) s
  retryWaits s.redWait.length s

/-- R650: the instant of the cut-off of the open instance in a table, if it has one. -/
def cutoffAt (s : State) (iod grp tbl : Nat) : Option Nat :=
  let e := gentry s iod tbl grp
  match (s.inst iod tbl grp).opn with
  | none => none
  | some d => if e.tagk then none else afterRound s d.tag e.cutoff
/-- R650, R652: the cut-off of the group's instance in a table passes: of those in both tables, the one that comes first, and
table A's where they come together. -/
def execReductionCutoff (iod : IodId) (grp : GrpId) (s : State) : Host.Outcome State Fault Refusal :=
  ifAlive s (
    let cut (tbl t : Nat) : State :=
      let s := closeInstance bridge (advanceTo s t) (gentry s iod tbl grp)
      retryWaits s.redWait.length s
    match cutoffAt s iod grp 0, cutoffAt s iod grp 1 with
    | none, none => s
    | some t, none => cut 0 t
    | none, some t => cut 1 t
    | some t, some u => if t ≤ u then cut 0 t else cut 1 u)

/-- R655: the last delivery write of a root instance has completed. -/
def execRootClose (iod : IodId) (grp : GrpId) (s : State) : Host.Outcome State Fault Refusal :=
  ifAlive s (if (s.inst iod 0 grp).closing.isSome then flushClosing s iod 0 grp else flushClosing s iod 1 grp)

/-- The open return of a group whose tag comes first. -/
def firstReturn (s : State) (g : Nat) : Option Deliv :=
  (s.returns.filter (·.1 / 65536 == g)).foldl (fun o p => match o with
    | none => some p.2
    | some d => if tagPrecedes p.2.tag d.tag then some p.2 else some d) none
/-- The entry that tells how a group of this module is tagged: its valid one, I/O die A's before I/O die B's.
Log entry 49, DEDUCED. -/
def groupEntry (s : State) (g : Nat) : GEnt :=
  if (gentry s 0 (curTbl s) g).valid then gentry s 0 (curTbl s) g else gentry s 1 (curTbl s) g
/-- R659: RETOFF µs have passed since the Round of an all-reduce return began. -/
def execReturnClose (grp : GrpId) (s : State) : Host.Outcome State Fault Refusal :=
  ifAlive s (match firstReturn s grp with
    | none => s
    | some d =>
      let iod := if bDeliv (bindOf s 0 grp) then 0 else 1
      match afterRound s d.tag (bRetOff (bindOf s iod grp)) with
      | none => s
      | some t => if (groupEntry s grp).tagk then s else
        let s := advanceTo s t
        closeReturn s iod grp d true)

/-! ## Local sends (R639 to R642, R679) -/

/-- R640: the flits of a contribution, from its bytes; `bad` tells the poisoned byte offsets. -/
def sendFlits (epoch grp tag nelem : Nat) (fp32 : Bool) (bytes : List Byte) (bad : Nat → Nat → Bool) : List Flit :=
  (upto (cdiv nelem (if fp32 then 60 else 120))).map fun k =>
    let bs := (bytes.drop (240 * k)).take 240
    ⟨mkHdr 9 2 epoch (bad (240 * k) bs.length) 0 (specRed grp tag 1 (if fp32 then 1 else 0) (if fp32 then k else 2 * k)),
      fitBytes 240 bs, none⟩

/-- R640: the send of a binding starts with the flits `fs` of the instance of `tag`: it is active, and its first flit goes. -/
def startSend (s : State) (x : Ctx) (g tag : Nat) (fs : List Flit) : State :=
  let b := binding s x g
  let iod := bIod b
  let e := gentry s iod (curTbl s) g
  let p := gentry s (1 - iod) (curTbl s) g
  let s := { s with sends := s.sends ++ [⟨x, g, iod, fs.tail⟩] }
  let s := if e.ar && bDeliv b && !bDelSu b && !e.root && !(p.valid && p.root) then openReturn s g tag else s
  match fs with
  | [] => s
  | f :: _ => redArrive s iod 13 f
/-- R642: the step unit's vote as a local send of one flit. Log entry 51, DESIGN CHOICE. -/
def runVote (s : State) (x : Ctx) (g : Nat) : State :=
  let tag := s.step.num.toNat % 65536
  startSend { s with step := { s.step with voteAt := some s.round.num } } x g tag
    [redFlit (curTbl s) g tag 1 0 false [s.step.vote]]
/-- R639, R640: a local send reads its source and starts. Log entry 51, DESIGN CHOICE. -/
def runSend (s : State) (x : Ctx) (g : Nat) : State :=
  let b := binding s x g
  if bSrcSu b then runVote s x g else
  let n := bNelem b * (if bFp32 b then 4 else 2)
  let a := bSrc b
  let rd := devRead s none 0 ((upto (64 + n)).map (· + a)) (s.endpoint 0)
  let view := rd.1
  let tag := ofLe (view.ld a 2)
  startSend rd.2 x g tag
    (sendFlits (curTbl s) g tag (bNelem b) (bFp32 b) (view.ld (a + 64) n) fun o k => view.poisoned (a + 64 + o) k)

/-- The context whose send of the group may start: its binding sends from memory. -/
def sendCtx (s : State) (g : Nat) (p : Ctx → List Byte → Bool) : Option Ctx :=
  [Ctx.d, Ctx.t].find? fun x => let b := binding s x g; bLsend b && !bSrcSu b && p x b
def sendRoom (s : State) (iod : Nat) : Bool := decide ((s.sends.filter (·.iod == iod)).length < 16)

/-- R679: local sends run. -/
def sendsOn (s : State) : Bool := s.fbit R.COLCTL_ENABLE && !s.stopped
/-- The triggered send that is next to start on an I/O die. -/
def firstPend (s : State) (iod : Nat) : Option (Ctx × Nat) := s.sendPend.find? fun q => bIod (binding s q.1 q.2) == iod
/-- R641, R679: a send that has been triggered starts, or waits for its turn. -/
def triggerSend (s : State) (x : Ctx) (g : Nat) : State :=
  let iod := bIod (binding s x g)
  if sendsOn s && sendRoom s iod && (firstPend s iod).isNone then runSend s x g
  else { s with sendPend := s.sendPend ++ [(x, g)] }

/-- R639, R641, R679: a pending send of the group starts in its turn, or a trigger is taken.
Log entry 51, DESIGN CHOICE. -/
def execLocalSendStart (grp : GrpId) (s : State) : Host.Outcome State Fault Refusal :=
  ifAlive s (
    let turn := [Ctx.d, Ctx.t].find? fun x =>
      let iod := bIod (binding s x grp)
      sendsOn s && sendRoom s iod && firstPend s iod == some (x, grp.val)
    match turn with
    | some x => runSend { s with sendPend := s.sendPend.erase (x, grp.val) } x grp
    | none =>
      match sendCtx s grp fun _ b => (s.ctr (bTrigCtr b)).met (bTrigThr b) with
      | none => s
      | some x =>
        if s.stopped then s
        else
          let b := binding s x grp
          triggerSend (ctrAdd s (bTrigCtr b) (-(bTrigThr b : Int)) (s.endpoint 0)) x grp)

/-- R611: a flit takes the current table as it is injected. -/
def nowEpoch (s : State) (f : Flit) : Flit := { f with hdr := BitVec.ofNat 128 (setBits f.hdr.toNat 121 1 (curTbl s)) }
/-- R641: a send has read its source: its last flits go, and its signal. -/
def sendEnds (s : State) (q : Send) : State :=
  let b := binding s q.ctx q.grp
  let s := q.rest.foldl (fun s f => redArrive s q.iod 13 (nowEpoch s f)) s
  if bSentSig b then ctrAdd s (bSentCtr b) 1 (s.endpoint 0) else s
/-- R641, R679: the oldest active send that may go on has read its source; while sends do not run, that is one whose flit in
progress is its last. Log entry 51, DESIGN CHOICE. -/
def execLocalSendSent (s : State) : Host.Outcome State Fault Refusal :=
  ifAlive s (match s.sends.find? fun q => sendsOn s || q.rest.isEmpty with
    | none => s
    | some q => sendEnds { s with sends := s.sends.erase q } q)

/-- R679, R680: active and pending local sends, of a context or of both, are discarded. -/
def abortSends (s : State) (p : Ctx → Bool) : State :=
  let k := (s.sends.filter fun q => p q.ctx).length + (s.sendPend.filter fun q => p q.1).length
  { s.bumpBy R.COLDISC k with
    sends := s.sends.filter fun q => !p q.ctx
    sendPend := s.sendPend.filter fun q => !p q.1 }

def execColctlEnable (req : Req) (on : Bool) (s : State) : Host.Outcome State Fault Refusal :=
  enable s req R.COLCTL_ENABLE on
def execColctlAbort (req : Req) (s : State) : Host.Outcome State Fault Refusal :=
  strobe s req R.COLCTL fun s => abortSends s fun _ => true

/-- R680, R796: every instance of a context's groups closes without delivery, and its slots are freed. -/
def dropInstances (s : State) (x : Ctx) : State :=
  let mine (iod g : Nat) : Bool := groupOwner s iod g == some x
  let insts := s.insts.map fun p =>
    if mine (p.1 / 8192) (p.1 % 4096) then
      (p.1, match p.2.opn with
        | some d => { p.2 with opn := none, mask := 0, removed := 0, last := some d.tag, closing := none }
        | none => { p.2 with closing := none })
    else p
  { s with
    insts := insts.filter fun p => p.2 != {}
    adders := (s.adders.map fun p => (p.1, p.2.filter fun y => !mine y.iod y.grp)).filter fun p => !p.2.isEmpty
    redWait := s.redWait.filter fun w => !mine w.1 w.2.2.grp
    returns := s.returns.filter fun p => !mine 0 (p.1 / 65536) && !mine 1 (p.1 / 65536)
    returned := s.returned.filter fun p => !mine 0 p.1 && !mine 1 p.1 }
/-- R646, R680: the flits that waited for the slots so freed go on. Log entry 50, DESIGN CHOICE. -/
def closeGroups (s : State) (x : Ctx) : State :=
  let s := dropInstances s x
  retryWaits s.redWait.length s

/-- R680: what remains of the context's collectives at unload. -/
def collUnload (s : State) (x : Ctx) : State :=
  let s := closeGroups s x
  match x with
  | .d => { s with rets := s.rets.filter fun p => !s.jhas .d 0x33 p.1 }
  | .t => { s with rets := s.rets.filter fun p => !s.jhas .t 0x33 p.1 }

/-! ## The step unit's trigger (R520, R642, R664) -/

def execStepTrigger (s : State) : Host.Outcome State Fault Refusal :=
  .next (
    let c := s.fget R.STEPCFG0_TRIGCTR
    let thr := s.fget R.STEPCFG1_TRIGTHR
    if !s.fbit R.STEPCTL_ENABLE || !s.loaded .t || s.step.voteAt.isSome || s.stopped || !(s.ctr c).met thr then s
    else
      let s := armReturns (ctrAdd s c (-(thr : Int)) (s.endpoint 0))
      let v : W32 := if s.fbit R.STEPSTAT_NFACC then 0x3F800000#32 else 0
      let s := s.fset R.STEPSTAT_NFACC 0
      let s := { s with step := { s.step with voteAt := some s.round.num, vote := v, result := none } }
      let g := s.fget R.STEPCFG2_VGRP
      let b := binding s .t g
      if b.isEmpty || !bSrcSu b || !bLsend b then s else triggerSend s .t g)

/-! ## Group entries by register (R614, R635, R682) -/

/-- The bits of a word that R633 names. Log entry 79, DEDUCED. -/
def groupMask (w : Nat) : Nat := if w = 0 then 0xFFFFE000 else if w = 1 then 0xFFFF3FFF else 0xFFFC0000
def outLegal (o : Nat) : Bool := decide (o < 12) || o == 16 || o == 17
/-- R606, R633: the fields of a word that name ports, by their lowest bit and width, and what each may hold: a route
entry has two, word 0 of a group entry three. UP is ignored where ROOT is 1. Log entry 79, DEDUCED. -/
def routeFields (w : Nat) : List (Nat × Nat × Bool) :=
  [(10, 5, outLegal (bitsOf w 10 5)), (4, 5, outLegal (bitsOf w 4 5))]
/-- Log entry 79, DEDUCED. -/
def groupFields (w : Nat) : List (Nat × Nat × Bool) :=
  [(24, 4, decide (bitsOf w 24 4 < 12)), (19, 5, bitOf w 30 || outLegal (bitsOf w 19 5)), (13, 5, outLegal (bitsOf w 13 5))]
/-- R17: no field of the word holds a reserved encoding. -/
def fieldsLegal (l : List (Nat × Nat × Bool)) : Bool := l.all (·.2.2)
/-- R17: a field that would hold a reserved encoding keeps its bits, and its Notice is raised. Log entry 79, DEDUCED. -/
def keepField (off old : Nat) (c : Nat × State) (f : Nat × Nat × Bool) : Nat × State :=
  let r := c.2.check 0x01 (blockNum off) [0] 0 (fun _ => true) (if f.2.2 then none else some 0)
  if r.1.isSome then (setBits c.1 f.1 f.2.1 (bitsOf old f.1 f.2.1), reservedWritten r.2.2 off r.2.1) else (c.1, r.2.2)
/-- R17: the word as it is written over an old one. Log entry 79, DEDUCED. -/
def keepFields (s : State) (off old new : Nat) (l : List (Nat × Nat × Bool)) : Nat × State :=
  l.foldl (keepField off old) (new, s)
/-- The word that `keepFields` leaves where no point is armed. -/
def settled (old new : Nat) (l : List (Nat × Nat × Bool)) : Nat :=
  l.foldl (fun n f => if f.2.2 then n else setBits n f.1 f.2.1 (bitsOf old f.1 f.2.1)) new
/-- R635. -/
def entryClash (e : GEnt) : Bool := e.up == 17 && (e.cpeer || bitOf e.inmask 12)

/-- R614: a table write is refused: to the current table, or while an advance is armed or overlaps, under load.
Log entry 79, DEDUCED. -/
def tableLocked (s : State) (tbl : Nat) : Bool :=
  s.anyJob && (tbl == curTbl s || s.fbit R.RTSTAT_ARMED || s.fbit R.RTSTAT_OVERLAP)

/-- Log entry 79, DEDUCED. -/
def writeGroup (s : State) (iod tbl g w : Nat) (v : W32) : State :=
  let new := v.toNat &&& groupMask w
  let old := groupWord s iod tbl g w
  let l := if w = 0 then groupFields new else []
  let e := gentry s iod tbl g
  let n := settled old new l
  let e' : GEnt := if w = 0 then { e with w0 := n } else if w = 1 then { e with w1 := n } else { e with w2 := n }
  let busy := tableLocked s tbl
  let no (inj : Bool) (s : State) : State := (if busy then s.fset R.RTSTAT_BUSYREF 1 else s).refusal 5 inj
  s.gate 5 (busy || entryClash e') no fun s =>
    let r := keepFields s (R.GRPDATA w) old new l
    { r.2 with groups := tput 0 r.2.groups (tblKey iod tbl g 4096 * 3 + w) (BitVec.ofNat 32 r.1) }

def execGrpdataAccess (req : Req) (word : Fin 3) (write : Option W32) (s : State) : Host.Outcome State Fault Refusal :=
  .next (match accessEnds s req (R.GRPDATA word) write.isSome (write.map fun _ => false) with
    | some s' => s'
    | none =>
      let iod := s.fget R.GRPSEL_IOD
      let tbl := s.fget R.GRPSEL_TBL
      let g := s.fget R.GRPSEL_INDEX
      let s := match write with
        | none => { s with reply := .data (leBytes 4 (groupWord s iod tbl g word)) }
        | some v => writeGroup s iod tbl g word v
      if word = 2 then s.fset R.GRPSEL_INDEX ((g + 1) % 4096) else s)

end Sys2Proof.Machine
end

