-- ==== Sys2Proof/Machine/Power.lean ====
section
/-! DEFINITION. Sys2Proof/Machine/Power.lean: each die's point (R819 to R823), the power cap (R825 to R827), the brake (R828,
R829), clocks (R46, R830, R831), temperatures (R832 to R835) and the reports of chapter 18 (R837). -/

namespace Sys2Proof.Machine

/-- An event at a detector's instance: its report, which carries INJ when an armed point of that cause fires (R806). -/
def eventReport (s : State) (cls : Cls) (det unit cause : Nat) (party : Party) (acc : Nat) : State :=
  let pr := s.probe det unit [cause] 0
  pr.2.reportFrom cls det unit cause party acc 0 (s.endpoint (masterOf det unit)) pr.1.isSome

/-- 3.3 V AUX is good: Base runs, or has failed at its bound. -/
def auxOn (s : State) : Bool := s.sec.base || s.fbit R.STAGESTAT_FAIL
/-- R776: the collectors that report: the Hub's own from the start of Base, the others from the start of Upsett.
Log entry 76, DEDUCED. -/
def collUp (s : State) (coll : Nat) : Bool := if coll = 4 then auxOn s else s.sec.begun

/-- Power management works from the start of Base (R738). Log entry 2, DESIGN CHOICE; 78, DEDUCED. -/
def whilePowered (s : State) (f : State → State) : Host.Outcome State Fault Refusal :=
  .next (if s.sec.base then f s else s)

/-! ## Points (R819 to R823) -/

/-- R820: the point of a die in the image's section: 1,200 MHz at point 0, frequencies that rise strictly to no more than
4,000 MHz at point 15, voltages from 600 to 950 mV that do not fall. -/
def vfPair (image : List Byte) (die : Nat) : Nat → Nat × Nat
  | 0 => (1200, 600 + (Config.vfEntry image die 0).toNat % 351)
  | p + 1 =>
    let q := vfPair image die p
    let e := (Config.vfEntry image die (p + 1)).toNat
    (q.1 + 1 + e / 65536 % (4000 - (14 - p) - q.1), q.2 + e % 65536 % (951 - q.2))
/-- R819: FREQ and VOLT of a point as its entry holds them. -/
def vfEntry (image : List Byte) (die pt : Nat) : Nat := (vfPair image die pt).1 * 65536 + (vfPair image die pt).2
/-- R819: the frequency in MHz of a die's point. Log entry 55, DESIGN CHOICE. -/
def vfFreq (s : State) (die pt : Nat) : Nat := bitsOf (s.wideGet 9 (0x10 + 16 * die + pt)) 16 16
/-- Log entry 4, DESIGN CHOICE. -/
def capPoint (s : State) (die : Nat) : Nat := tget 15 s.pw.cap die
/-- Log entry 4, DESIGN CHOICE. -/
def thermalPoint (s : State) (die : Nat) : Nat := tget 15 s.pw.thermal die
def presentPoint (s : State) (die : Nat) : Nat := tget 0 s.pw.present die
/-- R821: the effective point. Log entry 56, DEDUCED. -/
def effPoint (s : State) (die : Nat) : Nat :=
  let p := min (s.fget (R.VFSTAT_REQ die)) (min (capPoint s die) (thermalPoint s die))
  if s.pw.limit then min p (s.fget R.PBRKCFG_BRKPT) else p
/-- R821: the first limiter, in the order brake, thermal, cap, whose point is the effective point.
Log entry 57, DEDUCED. -/
def limiter (s : State) (die : Nat) : Nat :=
  let e := effPoint s die
  if s.pw.limit && s.fget R.PBRKCFG_BRKPT == e then 3
  else if thermalPoint s die = e then 2
  else if capPoint s die = e then 1
  else 0
/-- R819: the voltage in mV of a die's point. -/
def vfVolt (s : State) (die pt : Nat) : Nat := bitsOf (s.wideGet 9 (0x10 + 16 * die + pt)) 0 16
/-- The frequency of a die is that of a point; the arithmetic clocks stand after a Grave fault (R794). -/
def runAt (s : State) (die pt : Nat) : State :=
  { s.fset (R.VFSTAT_FREQ die) (if s.grave then 0 else vfFreq s die pt) with pw := { s.pw with present := tput 0 s.pw.present die pt } }
/-- R822: a rise runs from here, unless one is under way; none where the die runs at its effective point. The voltage leads
the frequency by a point in a rise, and follows it otherwise. Log entry 59, DESIGN CHOICE. -/
def riseMark (s : State) (die : Nat) : State :=
  let p := presentPoint s die
  let old := tget none s.pw.riseAt die
  let new := if p < effPoint s die then some (old.getD s.clk.tenths) else none
  { s with pw := { s.pw with
    riseAt := tput none s.pw.riseAt die new
    volt := tput 0 s.pw.volt die (vfVolt s die (if new.isSome then p + 1 else p)) } }
/-- R821, R822: what the die shows; a fall of the effective point takes effect at once. Log entry 59, DESIGN CHOICE. -/
def settle (s : State) (die : Nat) : State :=
  let e := effPoint s die
  let s' := (s.fset (R.VFSTAT_PT die) e).fset (R.VFSTAT_CAUSE die) (limiter s die)
  riseMark (if e < presentPoint s die then runAt s' die e else s') die
def settleAll (s : State) : State := [0, 1, 2, 3].foldl settle s
/-- R822: one step of a rise, 10 µs after the one before it. Log entry 59, DESIGN CHOICE. -/
def riseStep (s : State) (die : Nat) : State :=
  if !s.grave && presentPoint s die < effPoint s die then
    let t := (tget none s.pw.riseAt die).getD s.clk.tenths + 100000
    let s := runAt (advanceTo s t) die (presentPoint s die + 1)
    riseMark { s with pw := { s.pw with riseAt := tput none s.pw.riseAt die (some t) } } die
  else s
/-- Log entry 59, DESIGN CHOICE. -/
def execVfRiseStep (die : DieId) (s : State) : Host.Outcome State Fault Refusal :=
  whilePowered s fun s => riseStep s die

/-- R70, R821: firmware keeps its request of a die at or above a clock floor in MHz. Log entry 56, DEDUCED. -/
def raiseRequest (floor : Nat) (s : State) (die : Nat) : State :=
  if floor ≤ vfFreq s die (s.fget (R.VFSTAT_REQ die)) then s
  else
    match (upto 16).find? fun p => decide (floor ≤ vfFreq s die p) with
    | some p => settle (s.fset (R.VFSTAT_REQ die) p) die
    | none => s

/-! ## Power cap (R825 to R827) -/

/-- Log entry 57, DEDUCED. -/
def setCap (f : Nat → Nat) (s : State) (die : Nat) : State :=
  { s with pw := { s.pw with cap := tput 15 s.pw.cap die (f (capPoint s die)) } }
/-- Log entry 57, DEDUCED. -/
def moveCaps (s : State) (f : Nat → Nat) : State := settleAll ([0, 1, 2, 3].foldl (setCap f) s)

/-- R825, R826: one measurement of the input power, in W. -/
def powerSample (s : State) (w : Nat) : State :=
  let s := { s with pw := { s.pw with sum := s.pw.sum + w, count := s.pw.count + 1 } }
  if 4000 < w || (s.armedSlot 0x4F 0xFF [3] 0).isSome then
    eventReport ((moveCaps s fun c => c - 2).fset R.PWRSTAT_OVER 1) .notice 0x4F 0xFF 3 .none 0
  else s
/-- Log entry 57, DEDUCED. -/
def execPowerSample (watts : Nat) (s : State) : Host.Outcome State Fault Refusal :=
  whilePowered s fun s => powerSample s watts

/-- R825: the end of an interval of 100 µs with at least one measurement. Log entry 57, DEDUCED. -/
def powerInterval (s : State) : State :=
  if s.pw.count = 0 then s
  else
    let pin := min 65535 (s.pw.sum / s.pw.count)
    let s := s.fset R.PWRSTAT_PIN pin
    let put (low : Nat) : State := { s with pw := { s.pw with sum := 0, count := 0, low := low } }
    if s.fget R.PCCFG_CAP < pin then moveCaps (put 0) fun c => c - 1
    else if pin + 100 ≤ s.fget R.PCCFG_CAP then
      if 9 ≤ s.pw.low then moveCaps (put 10) fun c => min 15 (c + 1) else put (s.pw.low + 1)
    else put 0
def execPowerCapInterval (s : State) : Host.Outcome State Fault Refusal := whilePowered s powerInterval

/-! ## PWR_BRAKE_N (R828, R829) -/

def brakeEngage (s : State) : State :=
  if s.fbit R.PWRSTAT_BRAKE then s
  else
    let s := { s.fset R.PWRSTAT_BRAKE 1 with pw := { s.pw with limit := true, holdAt := none } }
    eventReport (settleAll s) .notice 0x4F 0xFF 4 .none 0
/-- Log entry 57, DEDUCED. -/
def brakeRelease (s : State) : State :=
  if s.fbit R.PWRSTAT_BRAKE then
    { s.fset R.PWRSTAT_BRAKE 0 with pw := { s.pw with holdAt := some s.clk.tenths } }
  else s
/-- HOLD × 10 µs after the release. Log entry 57, DEDUCED. -/
def holdExpiry (s : State) : State :=
  match s.pw.holdAt with
  | none => s
  | some t =>
    let s := advanceTo s (t + s.fget R.PBRKCFG_HOLD * 100000)
    settleAll { s with pw := { s.pw with limit := false, holdAt := none } }
def execBrakeEngage (s : State) : Host.Outcome State Fault Refusal := whilePowered s brakeEngage
def execBrakeRelease (s : State) : Host.Outcome State Fault Refusal := whilePowered s brakeRelease
/-- Log entry 3, DESIGN CHOICE. -/
def execBrakeHoldExpiry (s : State) : Host.Outcome State Fault Refusal := whilePowered s holdExpiry

/-! ## Temperatures (R832 to R834) -/

/-- The reading of a sensor; none where it has failed. -/
def reading (s : State) (l : List (Option Nat)) (k : Nat) : Option Nat :=
  if bitOf s.pw.failed k then none else (l[k]?).join
/-- The hottest of some sensors and its number: the lowest number where several are as hot. Log entry 58, DEDUCED. -/
def hottest (f : Nat → Option Nat) : List Nat → Option (Nat × Nat)
  | [] => none
  | k :: r =>
    match f k, hottest f r with
    | none, h => h
    | some t, none => some (t, k)
    | some t, some h => if h.1 ≤ t then some (t, k) else some h
/-- R833: the sensors of a die; a stack at 95 °C or more counts as TMAX. -/
def dieSensors (d : Nat) : List Nat :=
  (upto 16).map (16 * d + ·) ++ (upto 4).map (64 + 4 * d + ·) ++ [88 + 2 * d, 89 + 2 * d]
def dieReading (s : State) (l : List (Option Nat)) (k : Nat) : Option Nat :=
  (reading s l k).map fun t => if 88 ≤ k && 95 ≤ t then s.fget R.THCFG_TMAX else t
/-- R833: the thermal point at a temperature. -/
def pointOf (tthr tmax t : Nat) : Nat :=
  if t ≤ tthr then 15 else if tmax ≤ t then 0 else 15 - cdiv (15 * (t - tthr)) (tmax - tthr)
/-- A sensor that has failed is reported once (R832). -/
def sensorFails (s : State) (l : List (Option Nat)) : State :=
  (upto 98).foldl (fun s k =>
    if bitOf s.pw.failed k || ((l[k]?).join.isSome && (s.armedSlot 0x4F k [5] 0).isNone) then s
    else eventReport { s with pw := { s.pw with failed := s.pw.failed + 2 ^ k } } .notice 0x4F k 5 .none 0) s
/-- Log entry 58, DEDUCED. -/
def setThermal (l : List (Option Nat)) (s : State) (d : Nat) : State :=
  let t := match hottest (dieReading s l) (dieSensors d) with | some h => h.1 | none => 0
  { s with pw := { s.pw with
    thermal := tput 15 s.pw.thermal d (pointOf (s.fget R.THCFG_TTHR) (s.fget R.THCFG_TMAX) t) } }
/-- R806: the sensor at which an armed point of detector 0x4F and a cause fires in this sample. Log entry 21, DEDUCED. -/
def armedSensor (s : State) (cause n : Nat) : Option Nat :=
  (upto n).find? fun k => (s.armedSlot 0x4F k [cause] 0).isSome
/-- R834: the sensor that calls for an alert. -/
def alertSensor (s : State) (l : List (Option Nat)) : Option Nat :=
  match hottest (reading s l) (upto 88) with
  | some (t, k) =>
    if s.fget R.THCFG_TALERT ≤ t then some k
    else (reading s l 96).bind fun u => if 40 < u then some 96 else none
  | none => (reading s l 96).bind fun u => if 40 < u then some 96 else none

/-- Log entry 58, DEDUCED. -/
def raiseAlert (s : State) (l : List (Option Nat)) : State :=
  match (armedSensor s 2 97).or (alertSensor s l) with
  | none => { s with pw := { s.pw with alerting := false } }
  | some k =>
    let s' := { s.fset R.THSTAT_ALERT 1 with pw := { s.pw with alerting := true } }
    if s.pw.alerting && (armedSensor s 2 97).isNone then s' else eventReport s' .notice 0x4F k 2 .none 0
/-- R833: throttling begins or ends. Log entry 58, DEDUCED. -/
def setThrottle (s : State) (l : List (Option Nat)) : State :=
  match armedSensor s 1 96, [0, 1, 2, 3].find? fun d => decide (thermalPoint s d < 15) with
  | some k, _ => eventReport (s.fset R.THSTAT_THROT 1) .notice 0x4F k 1 .none 0
  | none, none => s.fset R.THSTAT_THROT 0
  | none, some d =>
    let k := match hottest (dieReading s l) (dieSensors d) with | some h => h.2 | none => 16 * d
    if s.fbit R.THSTAT_THROT then s else eventReport (s.fset R.THSTAT_THROT 1) .notice 0x4F k 1 .none 0

/-- R832 to R834: one reading of the sensors, in °C, by number; a sensor without a reading has failed. -/
def thermalSample (s : State) (l : List (Option Nat)) : State :=
  let s := sensorFails s l
  let s := match hottest (reading s l) (upto 88) with
    | some h => (s.fset R.THSTAT_TPEAK h.1).fset R.THSTAT_TSRC h.2
    | none => s
  let s := [0, 1, 2, 3].foldl (setThermal l) s
  raiseAlert (setThrottle (settleAll s) l) l
/-- Log entry 58, DEDUCED. -/
def execThermalSample (sensors : List (Option Nat)) (s : State) : Host.Outcome State Fault Refusal :=
  whilePowered s fun s => thermalSample s sensors

/-- R835: the UNIT of a trip: the die, or 4 + i for I/O die i. -/
def tripUnit (k : Nat) : Nat :=
  if k < 64 then k / 16 else if k < 80 then (k - 64) / 4 else 4 + (k - 80) / 4
/-! ## The rails (R735, R835) -/

def cxlMem (a : Nat) : Bool := match tierOf a with | some (.cxl _) => true | _ => false
/-- What no reset of the module touches: the commands that wait, what it has sent, memory outside it, its pins, its fuses
and its flashes. Log entry 53, DEDUCED. -/
def outlives (s : State) : State :=
  { State.reset with
    pending := s.pending, out := s.out, reply := s.reply, freeIdx := s.freeIdx, perst := s.perst
    mem := s.mem.filter fun e => cxlMem e.1
    poison := s.poison.filter fun w => cxlMem (4 * w)
    sec := { in54 := s.sec.in54, good54 := s.sec.good54, fw := s.sec.fw, kg := s.sec.kg, flash := s.sec.flash } }
/-- Registers of Base that 54 V does not power: the blocks on AUX, without what Upsett sets; fences and their counts last (R757, R798).
Log entry 53, DEDUCED. -/
def auxReg (o : Nat) : Bool :=
  (decide (o < 0x10000) || (decide (0x20000 ≤ o) && decide (o < 0x50000))) &&
  !(decide (R.VFSTAT 0 ≤ o) && decide (o ≤ R.VFSTAT 3)) && o != R.BOOTSTAT
/-- R858: a lock bit that is set, and what it locks, hold until a power-on or a warm reset. Log entry 53, DEDUCED. -/
def keepLocks (s t : State) : State :=
  let word (t : State) (lock : Fld) : State := if s.fbit lock then t.wr lock.off (s.rd lock.off) else t
  let t := word t R.EPCFG_LOCK
  let t := if s.fbit R.TLCTL_LOCK then t.fset R.TLCTL_LOCK 1 else t
  (upto 128).foldl (fun t c =>
    let t := word (word t (R.WVCFG_LOCK c 0)) (R.WVCFG_LOCK c 1)
    if s.fbit (R.CPCTL_DBGLOCK c) then
      (t.fset (R.CPCTL_DBGLOCK c) 1).fset (R.CPCTL_DBGEN c) (s.fget (R.CPCTL_DBGEN c))
    else t) t
/-- R735, R835: every rail but VAUX is off: what it powers is lost and the Base functions are held. A core that is fenced stays
fenced. Log entry 5, DESIGN CHOICE; 53, DEDUCED; 58, DEDUCED. -/
def railsOff (s : State) : State :=
  let t := outlives s
  let regs := s.regs.filter fun e => auxReg e.1
  let meas := s.sec.meas.filter fun e => decide (e.1 ≤ 2)
  let t := { t with
    regs := regs
    mboxes := s.mboxes, msixTab := s.msixTab, msixPend := s.msixPend, msixOn := s.msixOn, msixMask := s.msixMask
    cfgRegs := s.cfgRegs, clk := s.clk, reports := s.reports, captures := s.captures
    pw := { s.pw with present := [], volt := [], riseAt := [], selfRefresh := false }
    fenceCores := s.fenceCores, fenceChans := s.fenceChans, fencePorts := s.fencePorts
    sec := { s.sec with begun := false, keys := false, chains := [], meas := meas, spdm := {}, fencedAt := [], toldAt := [], pref := 0,
                            sysRec := [] } }
  (keepLocks s t).fset R.STAGESTAT_STAGE 1

/-- R817, R835: a trip, of a sensor that AUX feeds: its report, which silicon without power does not make (R776), and every
rail but VAUX is off. Log entry 58, DEDUCED. -/
def trip (s : State) (unit : Nat) : State :=
  if s.pw.tripped || !auxOn s then s
  else
    let t := { s with pw := { s.pw with tripped := true } }
    railsOff (if collUp s (collOf 0x4B unit) then eventReport t .grave 0x4B unit 0 .module 0 else t)
/-- Log entry 58, DEDUCED. -/
def execThermalTrip (sensor : Nat) (s : State) : Host.Outcome State Fault Refusal :=
  .next (if 88 ≤ sensor then s else trip s (tripUnit sensor))

/-! ## Supplies and clocks (R817, R818, R830, R831, R837) -/

def railFault (s : State) (rail cause : Nat) : State :=
  if collUp s 0 && rail ≤ 0x0B && 1 ≤ cause && cause ≤ 3 then eventReport s .device 0x4E rail cause .module 0 else s
def execRailFault (rail cause : Nat) (s : State) : Host.Outcome State Fault Refusal :=
  whilePowered s fun s => railFault s rail cause
/-- R818: 54 V is present, near a limit of its window. -/
def nearLimit (s : State) : State := if s.sec.in54 then eventReport s .notice 0x4F 0xFF 6 .none 0 else s
def execInput54vNearLimit (s : State) : Host.Outcome State Fault Refusal := whilePowered s nearLimit
/-- R831: a PLL that has power loses lock, or the link reference clock stops and device time holds. -/
def clockLoss (s : State) (clk : Nat) : State :=
  if 0x10 ≤ clk && clk ≤ 0x14 then if !collUp s 0 then s else eventReport s .device 0x4E clk 4 .module 0
  else if clk = 0x15 && s.clk.present then
    { eventReport s .device 0x4E clk 5 .module 0 with clk := { s.clk with present := false } }
  else s
def execClockLoss (clk : Nat) (s : State) : Host.Outcome State Fault Refusal :=
  whilePowered s fun s => clockLoss s clk
/-- R46: the first detection of the link reference clock after power-on. -/
def execLinkRefClockDetect (s : State) : Host.Outcome State Fault Refusal :=
  .next (if s.clk.started then s else { s with clk := { present := true, started := true, tenths := 0, base := 0 } })
def execLinkRefClockReturn (s : State) : Host.Outcome State Fault Refusal :=
  .next (if s.clk.started then { s with clk := { s.clk with present := true } } else s)

/-! ## Pins -/

/-- R834: ALERT_N is low. -/
def alertLow (s : State) : Bool := s.fbit R.THSTAT_ALERT || s.fbit R.PWRSTAT_OVER
/-- R835: THERMTRIP_N is low. -/
def thermtripLow (s : State) : Bool := s.pw.tripped

end Sys2Proof.Machine
end

