-- ==== Sys2Proof/Machine/Sha.lean ====
section
/-! DEFINITION. Sys2Proof/Machine/Sha.lean: SHA-384 of FIPS 180-4, which the ledger (R568 to R572) and the measurements of
the security chapter name. -/

namespace Sys2Proof.Machine

/-- The eight words of the hash value, or of the working variables. -/
structure ShaH where
  a : W64
  b : W64
  c : W64
  d : W64
  e : W64
  f : W64
  g : W64
  h : W64
deriving DecidableEq, Repr

def sha384Init : ShaH := ⟨0xCBBB9D5DC1059ED8#64, 0x629A292A367CD507#64, 0x9159015A3070DD17#64, 0x152FECD8F70E5939#64, 0x67332667FFC00B31#64, 0x8EB44A8768581511#64, 0xDB0C2E0D64F98FA7#64, 0x47B5481DBEFA4FA4#64⟩

def shaK : List W64 :=
  [0x428A2F98D728AE22#64, 0x7137449123EF65CD#64, 0xB5C0FBCFEC4D3B2F#64, 0xE9B5DBA58189DBBC#64] ++
  [0x3956C25BF348B538#64, 0x59F111F1B605D019#64, 0x923F82A4AF194F9B#64, 0xAB1C5ED5DA6D8118#64] ++
  [0xD807AA98A3030242#64, 0x12835B0145706FBE#64, 0x243185BE4EE4B28C#64, 0x550C7DC3D5FFB4E2#64] ++
  [0x72BE5D74F27B896F#64, 0x80DEB1FE3B1696B1#64, 0x9BDC06A725C71235#64, 0xC19BF174CF692694#64] ++
  [0xE49B69C19EF14AD2#64, 0xEFBE4786384F25E3#64, 0x0FC19DC68B8CD5B5#64, 0x240CA1CC77AC9C65#64] ++
  [0x2DE92C6F592B0275#64, 0x4A7484AA6EA6E483#64, 0x5CB0A9DCBD41FBD4#64, 0x76F988DA831153B5#64] ++
  [0x983E5152EE66DFAB#64, 0xA831C66D2DB43210#64, 0xB00327C898FB213F#64, 0xBF597FC7BEEF0EE4#64] ++
  [0xC6E00BF33DA88FC2#64, 0xD5A79147930AA725#64, 0x06CA6351E003826F#64, 0x142929670A0E6E70#64] ++
  [0x27B70A8546D22FFC#64, 0x2E1B21385C26C926#64, 0x4D2C6DFC5AC42AED#64, 0x53380D139D95B3DF#64] ++
  [0x650A73548BAF63DE#64, 0x766A0ABB3C77B2A8#64, 0x81C2C92E47EDAEE6#64, 0x92722C851482353B#64] ++
  [0xA2BFE8A14CF10364#64, 0xA81A664BBC423001#64, 0xC24B8B70D0F89791#64, 0xC76C51A30654BE30#64] ++
  [0xD192E819D6EF5218#64, 0xD69906245565A910#64, 0xF40E35855771202A#64, 0x106AA07032BBD1B8#64] ++
  [0x19A4C116B8D2D0C8#64, 0x1E376C085141AB53#64, 0x2748774CDF8EEB99#64, 0x34B0BCB5E19B48A8#64] ++
  [0x391C0CB3C5C95A63#64, 0x4ED8AA4AE3418ACB#64, 0x5B9CCA4F7763E373#64, 0x682E6FF3D6B2B8A3#64] ++
  [0x748F82EE5DEFB2FC#64, 0x78A5636F43172F60#64, 0x84C87814A1F0AB72#64, 0x8CC702081A6439EC#64] ++
  [0x90BEFFFA23631E28#64, 0xA4506CEBDE82BDE9#64, 0xBEF9A3F7B2C67915#64, 0xC67178F2E372532B#64] ++
  [0xCA273ECEEA26619C#64, 0xD186B8C721C0C207#64, 0xEADA7DD6CDE0EB1E#64, 0xF57D4F7FEE6ED178#64] ++
  [0x06F067AA72176FBA#64, 0x0A637DC5A2C898A6#64, 0x113F9804BEF90DAE#64, 0x1B710B35131C471B#64] ++
  [0x28DB77F523047D84#64, 0x32CAAB7B40C72493#64, 0x3C9EBE0A15C9BEBC#64, 0x431D67C49C100D4C#64] ++
  [0x4CC5D4BECB3E42B6#64, 0x597F299CFC657E2A#64, 0x5FCB6FAB3AD6FAEC#64, 0x6C44198C4A475817#64]

def rotr64 (x : W64) (n : Nat) : W64 := x.rotateRight n
def shaS0 (x : W64) : W64 := rotr64 x 28 ^^^ rotr64 x 34 ^^^ rotr64 x 39
def shaS1 (x : W64) : W64 := rotr64 x 14 ^^^ rotr64 x 18 ^^^ rotr64 x 41
def shaR0 (x : W64) : W64 := rotr64 x 1 ^^^ rotr64 x 8 ^^^ (x >>> 7)
def shaR1 (x : W64) : W64 := rotr64 x 19 ^^^ rotr64 x 61 ^^^ (x >>> 6)
def shaCh (x y z : W64) : W64 := (x &&& y) ^^^ (~~~x &&& z)
def shaMaj (x y z : W64) : W64 := (x &&& y) ^^^ (x &&& z) ^^^ (y &&& z)

def ShaH.add (x y : ShaH) : ShaH :=
  ⟨x.a + y.a, x.b + y.b, x.c + y.c, x.d + y.d, x.e + y.e, x.f + y.f, x.g + y.g, x.h + y.h⟩

/-- One round with constant k and schedule word w. -/
def ShaH.round (s : ShaH) (k w : W64) : ShaH :=
  let t1 := s.h + shaS1 s.e + shaCh s.e s.f s.g + k + w
  let t2 := shaS0 s.a + shaMaj s.a s.b s.c
  ⟨t1 + t2, s.a, s.b, s.c, s.d + t1, s.e, s.f, s.g⟩

/-- The rounds: the window holds the next 16 words of the message schedule. -/
def shaRounds : List W64 → List W64 → ShaH → ShaH
  | [], _, s => s
  | k :: r, win, s =>
    let w := win.headD 0
    let nxt := shaR1 (win.getD 14 0) + win.getD 9 0 + shaR0 (win.getD 1 0) + w
    shaRounds r (win.tail ++ [nxt]) (s.round k w)

/-- A big-endian number. -/
def ofBe (bs : List Byte) : Nat := bs.foldl (fun n b => n * 256 + b.toNat) 0

/-- One block of 128 bytes. -/
def shaBlock (s : ShaH) (bs : List Byte) : ShaH :=
  s.add (shaRounds shaK ((upto 16).map fun k => BitVec.ofNat 64 (ofBe ((bs.drop (8 * k)).take 8))) s)

def shaBlocks : Nat → List Byte → ShaH → ShaH
  | 0, _, s => s
  | k + 1, bs, s => shaBlocks k (bs.drop 128) (shaBlock s (bs.take 128))

/-- The message with its padding. -/
def shaPad (bs : List Byte) : List Byte :=
  bs ++ [0x80#8] ++ List.replicate ((239 - bs.length % 128) % 128) 0 ++ beBytes 16 (8 * bs.length)

def ShaH.bytes384 (s : ShaH) : List Byte :=
  [s.a, s.b, s.c, s.d, s.e, s.f].flatMap fun w => beBytes 8 w.toNat

/-- The digest of 48 bytes. -/
def sha384 (bs : List Byte) : List Byte :=
  let p := shaPad bs
  (shaBlocks (p.length / 128) p sha384Init).bytes384

/-! ## HMAC -/

/-- HMAC of RFC 2104 with SHA-384, for a key of at most 128 bytes. -/
def hmac384 (key msg : List Byte) : List Byte :=
  let pad (v : Byte) : List Byte := (fitBytes 128 key).map (· ^^^ v)
  sha384 (pad 0x5C ++ sha384 (pad 0x36 ++ msg))
/-- The serial number, 12 ASCII characters (R5). -/
def serialChars : List Byte := (upto 12).map Config.serial

end Sys2Proof.Machine
end

