-- ==== Sys2Proof/Machine/Crypto.lean ====
section
/-! DEFINITION. Sys2Proof/Machine/Crypto.lean: the algorithms that the security chapter takes from standards: SHA-256 of FIPS
180-4, RSASSA-PSS of RFC 8017 (R571, R747), SLH-DSA of FIPS 205 (R571, R747, R751, R765), HMAC_DRBG of SP 800-90A and the
primes of FIPS 186-5 A.1.3 (R751). What these standards say is taken from them. -/

namespace Sys2Proof.Machine

/-! ## SHA-256 -/

structure Sha256 where
  a : W32
  b : W32
  c : W32
  d : W32
  e : W32
  f : W32
  g : W32
  h : W32
deriving DecidableEq, Repr

def sha256Init : Sha256 :=
  ⟨0x6A09E667#32, 0xBB67AE85#32, 0x3C6EF372#32, 0xA54FF53A#32, 0x510E527F#32, 0x9B05688C#32, 0x1F83D9AB#32, 0x5BE0CD19#32⟩
def sha256K : List W32 :=
  [0x428A2F98, 0x71374491, 0xB5C0FBCF, 0xE9B5DBA5, 0x3956C25B, 0x59F111F1, 0x923F82A4, 0xAB1C5ED5] ++
  [0xD807AA98, 0x12835B01, 0x243185BE, 0x550C7DC3, 0x72BE5D74, 0x80DEB1FE, 0x9BDC06A7, 0xC19BF174] ++
  [0xE49B69C1, 0xEFBE4786, 0x0FC19DC6, 0x240CA1CC, 0x2DE92C6F, 0x4A7484AA, 0x5CB0A9DC, 0x76F988DA] ++
  [0x983E5152, 0xA831C66D, 0xB00327C8, 0xBF597FC7, 0xC6E00BF3, 0xD5A79147, 0x06CA6351, 0x14292967] ++
  [0x27B70A85, 0x2E1B2138, 0x4D2C6DFC, 0x53380D13, 0x650A7354, 0x766A0ABB, 0x81C2C92E, 0x92722C85] ++
  [0xA2BFE8A1, 0xA81A664B, 0xC24B8B70, 0xC76C51A3, 0xD192E819, 0xD6990624, 0xF40E3585, 0x106AA070] ++
  [0x19A4C116, 0x1E376C08, 0x2748774C, 0x34B0BCB5, 0x391C0CB3, 0x4ED8AA4A, 0x5B9CCA4F, 0x682E6FF3] ++
  [0x748F82EE, 0x78A5636F, 0x84C87814, 0x8CC70208, 0x90BEFFFA, 0xA4506CEB, 0xBEF9A3F7, 0xC67178F2]
def Sha256.add (x y : Sha256) : Sha256 :=
  ⟨x.a + y.a, x.b + y.b, x.c + y.c, x.d + y.d, x.e + y.e, x.f + y.f, x.g + y.g, x.h + y.h⟩
/-- Three rotations of a word combined. -/
def rot3 (x : W32) (i j k : Nat) : W32 := x.rotateRight i ^^^ x.rotateRight j ^^^ x.rotateRight k
def Sha256.round (s : Sha256) (k w : W32) : Sha256 :=
  let t1 := s.h + rot3 s.e 6 11 25 + ((s.e &&& s.f) ^^^ (~~~s.e &&& s.g)) + k + w
  let t2 := rot3 s.a 2 13 22 + ((s.a &&& s.b) ^^^ (s.a &&& s.c) ^^^ (s.b &&& s.c))
  ⟨t1 + t2, s.a, s.b, s.c, s.d + t1, s.e, s.f, s.g⟩
/-- The rounds: the window holds the next 16 words of the message schedule. -/
def sha256Rounds : List W32 → List W32 → Sha256 → Sha256
  | [], _, s => s
  | k :: r, win, s =>
    let w := win.headD 0
    let x := win.getD 14 0
    let y := win.getD 1 0
    let nxt := (x.rotateRight 17 ^^^ x.rotateRight 19 ^^^ (x >>> 10)) + win.getD 9 0 +
      (y.rotateRight 7 ^^^ y.rotateRight 18 ^^^ (y >>> 3)) + w
    sha256Rounds r (win.tail ++ [nxt]) (s.round k w)
def sha256Block (s : Sha256) (bs : List Byte) : Sha256 :=
  s.add (sha256Rounds sha256K ((upto 16).map fun k => BitVec.ofNat 32 (ofBe ((bs.drop (4 * k)).take 4))) s)
def sha256Blocks : Nat → List Byte → Sha256 → Sha256
  | 0, _, s => s
  | k + 1, bs, s => sha256Blocks k (bs.drop 64) (sha256Block s (bs.take 64))
def sha256Pad (bs : List Byte) : List Byte :=
  bs ++ [0x80#8] ++ List.replicate ((119 - bs.length % 64) % 64) 0 ++ beBytes 8 (8 * bs.length)
/-- The digest of 32 bytes. -/
def sha256 (bs : List Byte) : List Byte :=
  let p := sha256Pad bs
  let s := sha256Blocks (p.length / 64) p sha256Init
  [s.a, s.b, s.c, s.d, s.e, s.f, s.g, s.h].flatMap fun w => beBytes 4 w.toNat
/-- HMAC with SHA-256, for a key of at most 64 bytes. -/
def hmac256 (key msg : List Byte) : List Byte :=
  let pad (v : Byte) : List Byte := (fitBytes 64 key).map (· ^^^ v)
  sha256 (pad 0x5C ++ sha256 (pad 0x36 ++ msg))
/-- MGF1 of RFC 8017 over a hash of `h` bytes. -/
def mgf1 (hash : List Byte → List Byte) (h : Nat) (seed : List Byte) (n : Nat) : List Byte :=
  ((upto (cdiv n h)).flatMap fun c => hash (seed ++ beBytes 4 c)).take n

/-! ## RSASSA-PSS (RFC 8017), SHA-384, a modulus of 3,072 bits, a salt of 48 bytes -/

/-- b^e mod n, by the bits of e below `k`. -/
def modPow (n : Nat) : Nat → Nat → Nat → Nat
  | 0, _, _ => 1 % n
  | k + 1, b, e => (if e % 2 = 1 then b else 1) * modPow n k (b * b % n) (e / 2) % n
def xorBytes (a b : List Byte) : List Byte := (a.zip b).map fun p => p.1 ^^^ p.2
/-- The hash of the padded message digest and salt. -/
def pssHash (msg salt : List Byte) : List Byte := sha384 (List.replicate 8 0 ++ sha384 msg ++ salt)
/-- The data block before its mask: zeros, 1, the salt, in 335 bytes. -/
def pssBlock (salt : List Byte) : List Byte := List.replicate 286 0 ++ [1] ++ salt
/-- The first bit of the encoded message is 0. -/
def topClear : List Byte → List Byte
  | [] => []
  | b :: r => (b &&& 0x7F) :: r
/-- EMSA-PSS-ENCODE. -/
def pssEncode (msg salt : List Byte) : List Byte :=
  let h := pssHash msg salt
  topClear (xorBytes (pssBlock salt) (mgf1 sha384 48 h 335)) ++ h ++ [0xBC#8]
/-- EMSA-PSS-VERIFY: the salt that the data block shows gives the hash. -/
def pssGood (msg em : List Byte) : Bool :=
  let h := (em.drop 335).take 48
  let db := topClear (xorBytes (em.take 335) (mgf1 sha384 48 h 335))
  let salt := db.drop 287
  em.length == 384 && em.getLastD 0 == 0xBC && em.headD 0 &&& 0x80 == 0 && db == pssBlock salt && pssHash msg salt == h
def rsaExp : Nat := 65537
/-- RSASSA-PSS-VERIFY under a modulus in 384 bytes, the most significant first. Log entry 97, PRESUMED. -/
def rsaVerify (key msg sig : List Byte) : Bool :=
  let n := ofBe key
  sig.length == 384 && decide (ofBe sig < n) && pssGood msg (beBytes 384 (modPow n 17 (ofBe sig) rsaExp))

/-! ## HMAC_DRBG (SP 800-90A) and the RSA key (FIPS 186-5 A.1.3) -/

/-- HMAC_DRBG with SHA-384: its working state. -/
structure Drbg where
  key : List Byte
  v : List Byte
deriving DecidableEq, Repr
def Drbg.mix (d : Drbg) (sep : Byte) (data : List Byte) : Drbg :=
  let k := hmac384 d.key (d.v ++ [sep] ++ data)
  ⟨k, hmac384 k d.v⟩
def Drbg.update (d : Drbg) (data : List Byte) : Drbg := if data.isEmpty then d.mix 0 [] else (d.mix 0 data).mix 1 data
def Drbg.seeded (seed : List Byte) : Drbg := Drbg.update ⟨List.replicate 48 0, List.replicate 48 1⟩ seed
def Drbg.blocks : Nat → Drbg → List Byte × Drbg
  | 0, d => ([], d)
  | k + 1, d =>
    let d := { d with v := hmac384 d.key d.v }
    let r := Drbg.blocks k d
    (d.v ++ r.1, r.2)
/-- One request for n bytes. -/
def Drbg.generate (d : Drbg) (n : Nat) : List Byte × Drbg :=
  let r := Drbg.blocks (cdiv n 48) d
  (r.1.take n, r.2.update [])

/-- A number that no smaller one above 1 divides. The test for primality is taken as exact. -/
def isPrime (n : Nat) : Bool := decide (2 ≤ n) && (upto (n - 2)).all fun k => n % (k + 2) != 0
/-- FIPS 186-5 A.1.3: a probable prime of 1,536 bits, far from `first` for the second of a key. `left` strings may still be
tested; those below √2 · 2^1535, and those too near `first`, are drawn again without being counted. The strings that the
HMAC_DRBG gives before it must be seeded anew bound the draws. Log entry 97, PRESUMED. -/
def drawPrime (first : Nat) : Nat → Nat → Drbg → Option (Nat × Drbg)
  | 0, _, _ => none
  | k + 1, left, d =>
    let r := d.generate 192
    let x := ofBe r.1
    let p := if x % 2 = 0 then x + 1 else x
    let near := decide (max p first - min p first ≤ 2 ^ 1436)
    if p * p < 2 ^ 3071 || (first != 0 && near) then drawPrime first k left r.2
    else if Nat.gcd (p - 1) rsaExp == 1 && isPrime p then some (p, r.2)
    else if left ≤ 1 then none
    else drawPrime first k (left - 1) r.2
/-- SP 800-90A: the requests that an HMAC_DRBG serves from one seed. -/
def drbgRequests : Nat := 2 ^ 48
/-- u and v with u a + v b the greatest common divisor of a and b. -/
def bezout : Nat → Nat → Nat → Int × Int
  | 0, _, _ => (1, 0)
  | k + 1, a, b =>
    if b = 0 then (1, 0)
    else
      let u := bezout k b (a % b)
      (u.2, u.1 - u.2 * (a / b : Nat))
/-- The modulus and the private exponent of the key that 48 bytes seed. Log entry 97, PRESUMED. -/
def rsaKey (seed : List Byte) : Option (Nat × Nat) :=
  match drawPrime 0 drbgRequests 15360 (Drbg.seeded seed) with
  | none => none
  | some (p, d) =>
    match drawPrime p drbgRequests 30720 d with
    | none => none
    | some (q, _) =>
      let l := (p - 1) * (q - 1) / Nat.gcd (p - 1) (q - 1)
      some (p * q, ((bezout 4608 rsaExp l).1 % (l : Int)).toNat)
/-- The public modulus in 384 bytes, the most significant first. -/
def rsaPublic (seed : List Byte) : List Byte := match rsaKey seed with | none => [] | some k => beBytes 384 k.1
/-- RSASSA-PSS-SIGN with a salt. Log entry 97, PRESUMED. -/
def rsaSign (seed msg salt : List Byte) : List Byte :=
  match rsaKey seed with
  | none => []
  | some k => beBytes 384 (modPow k.1 3072 (ofBe (pssEncode msg salt)) k.2)

/-! ## SLH-DSA-SHA2-128s and -128f (FIPS 205) -/

/-- The parameters: layers, height of a tree, height and number of FORS trees; n = 16 and w = 16. -/
structure SlhSet where
  d : Nat
  hp : Nat
  a : Nat
  k : Nat
deriving DecidableEq, Repr
def slh128s : SlhSet := ⟨7, 9, 12, 14⟩
def slh128f : SlhSet := ⟨22, 3, 6, 33⟩
/-- Bytes of a signature. -/
def SlhSet.sigLen (p : SlhSet) : Nat := 16 * (1 + p.k * (1 + p.a) + p.d * (35 + p.hp))

/-- An address in its compressed form: layer, tree, type, and three words. -/
structure SlhAdrs where
  layer : Nat := 0
  tree : Nat := 0
  typ : Nat := 0
  w1 : Nat := 0
  w2 : Nat := 0
  w3 : Nat := 0
deriving DecidableEq, Repr
def SlhAdrs.bytes (x : SlhAdrs) : List Byte :=
  beBytes 1 x.layer ++ beBytes 8 x.tree ++ beBytes 1 x.typ ++ beBytes 4 x.w1 ++ beBytes 4 x.w2 ++ beBytes 4 x.w3
/-- F, H, T and PRF: they differ in what they are given. -/
def slhHash (pks : List Byte) (x : SlhAdrs) (m : List Byte) : List Byte :=
  (sha256 (pks ++ List.replicate 48 0 ++ x.bytes ++ m)).take 16
/-- base_2b: n numbers of b bits from a byte string. -/
def slhBase (bs : List Byte) (b n : Nat) : List Nat :=
  let v := ofBe (bs.take (cdiv (n * b) 8))
  let top := 8 * cdiv (n * b) 8
  (upto n).map fun i => v / 2 ^ (top - b * (i + 1)) % 2 ^ b

/-- Steps i to i + s − 1 of a WOTS+ chain. -/
def slhChain (pks : List Byte) (x : SlhAdrs) : Nat → Nat → List Byte → List Byte
  | 0, _, m => m
  | s + 1, i, m => slhChain pks x s (i + 1) (slhHash pks { x with w3 := i } m)
/-- The digits of a message and of its checksum. -/
def wotsDigits (m : List Byte) : List Nat :=
  let l := slhBase m 4 32
  let sum := l.foldl (fun t v => t + (15 - v)) 0
  l ++ slhBase (beBytes 2 (sum * 16)) 4 3
/-- The secret of a chain: type WOTS_PRF. -/
def wotsSecret (sk pks : List Byte) (x : SlhAdrs) (i : Nat) : List Byte := slhHash pks { x with typ := 5, w2 := i, w3 := 0 } sk
/-- Of a WOTS_HASH address with its key pair: the compressed public key. -/
def wotsPack (pks : List Byte) (x : SlhAdrs) (ends : List (List Byte)) : List Byte :=
  slhHash pks { x with typ := 1, w2 := 0, w3 := 0 } ends.flatten
def wotsPublic (sk pks : List Byte) (x : SlhAdrs) : List Byte :=
  wotsPack pks x ((upto 35).map fun i => slhChain pks { x with w2 := i } 15 0 (wotsSecret sk pks x i))
def wotsSign (sk pks : List Byte) (x : SlhAdrs) (m : List Byte) : List (List Byte) :=
  ((upto 35).zip (wotsDigits m)).map fun p => slhChain pks { x with w2 := p.1 } p.2 0 (wotsSecret sk pks x p.1)
def wotsFromSig (pks : List Byte) (x : SlhAdrs) (m : List Byte) (sig : List (List Byte)) : List Byte :=
  wotsPack pks x (((upto 35).zip ((wotsDigits m).zip sig)).map fun p =>
    slhChain pks { x with w2 := p.1 } (15 - p.2.1) p.2.1 p.2.2)

/-- A node of a tree of a layer: its height and its index. -/
def xmssNode (sk pks : List Byte) (layer tree : Nat) : Nat → Nat → List Byte
  | 0, i => wotsPublic sk pks { layer := layer, tree := tree, w1 := i }
  | z + 1, i =>
    slhHash pks { layer := layer, tree := tree, typ := 2, w2 := z + 1, w3 := i }
      (xmssNode sk pks layer tree z (2 * i) ++ xmssNode sk pks layer tree z (2 * i + 1))
/-- The neighbour, at height j, of the path from a leaf. -/
def sibling (i j : Nat) : Nat := if i / 2 ^ j % 2 = 0 then i / 2 ^ j + 1 else i / 2 ^ j - 1
/-- The root of a path: `x` gives the address of a node of height and index, `auth` the neighbours from height j on. -/
def climb (pks : List Byte) (x : Nat → Nat → SlhAdrs) : Nat → Nat → List Byte → List (List Byte) → List Byte
  | _, _, node, [] => node
  | j, i, node, s :: r =>
    climb pks x (j + 1) (i / 2) (slhHash pks (x (j + 1) (i / 2)) (if i % 2 = 0 then node ++ s else s ++ node)) r
def xmssSign (p : SlhSet) (sk pks : List Byte) (layer tree leaf : Nat) (m : List Byte) : List (List Byte) :=
  wotsSign sk pks { layer := layer, tree := tree, w1 := leaf } m ++
    (upto p.hp).map fun j => xmssNode sk pks layer tree j (sibling leaf j)
def xmssFromSig (pks : List Byte) (layer tree leaf : Nat) (m : List Byte) (sig : List (List Byte)) : List Byte :=
  climb pks (fun z i => { layer := layer, tree := tree, typ := 2, w2 := z, w3 := i }) 0 leaf
    (wotsFromSig pks { layer := layer, tree := tree, w1 := leaf } m (sig.take 35)) (sig.drop 35)

/-- The hypertree's signature of the layers left, from layer l: its parts of 16 bytes. -/
def htSign (p : SlhSet) (sk pks : List Byte) : Nat → Nat → Nat → Nat → List Byte → List (List Byte)
  | 0, _, _, _, _ => []
  | k + 1, l, tree, leaf, m =>
    let sig := xmssSign p sk pks l tree leaf m
    sig ++ htSign p sk pks k (l + 1) (tree / 2 ^ p.hp) (tree % 2 ^ p.hp) (xmssFromSig pks l tree leaf m sig)
/-- The root that a hypertree signature gives. -/
def htRoot (p : SlhSet) (pks : List Byte) : Nat → Nat → Nat → Nat → List Byte → List (List Byte) → List Byte
  | 0, _, _, _, m, _ => m
  | k + 1, l, tree, leaf, m, sig =>
    htRoot p pks k (l + 1) (tree / 2 ^ p.hp) (tree % 2 ^ p.hp) (xmssFromSig pks l tree leaf m (sig.take (35 + p.hp)))
      (sig.drop (35 + p.hp))

/-- The address of a FORS node: of type FORS_TREE, or FORS_PRF for a secret. -/
def forsAdrs (tree leaf typ z i : Nat) : SlhAdrs := { tree := tree, typ := typ, w1 := leaf, w2 := z, w3 := i }
def forsSecret (sk pks : List Byte) (tree leaf i : Nat) : List Byte := slhHash pks (forsAdrs tree leaf 6 0 i) sk
def forsNode (sk pks : List Byte) (tree leaf : Nat) : Nat → Nat → List Byte
  | 0, i => slhHash pks (forsAdrs tree leaf 3 0 i) (forsSecret sk pks tree leaf i)
  | z + 1, i =>
    slhHash pks (forsAdrs tree leaf 3 (z + 1) i)
      (forsNode sk pks tree leaf z (2 * i) ++ forsNode sk pks tree leaf z (2 * i + 1))
def forsSign (p : SlhSet) (sk pks : List Byte) (tree leaf : Nat) (md : List Byte) : List (List Byte) :=
  ((upto p.k).zip (slhBase md p.a p.k)).flatMap fun e =>
    let i := e.1 * 2 ^ p.a + e.2
    forsSecret sk pks tree leaf i :: (upto p.a).map fun j => forsNode sk pks tree leaf j (sibling i j)
def forsPublic (p : SlhSet) (pks : List Byte) (tree leaf : Nat) (md : List Byte) (sig : List (List Byte)) : List Byte :=
  slhHash pks (forsAdrs tree leaf 4 0 0) (((upto p.k).zip (slhBase md p.a p.k)).flatMap fun e =>
    let i := e.1 * 2 ^ p.a + e.2
    let part := (sig.drop (e.1 * (1 + p.a))).take (1 + p.a)
    climb pks (forsAdrs tree leaf 3) 0 i (slhHash pks (forsAdrs tree leaf 3 0 i) (part.headD [])) part.tail)

/-- What a message's digest selects: the FORS digits' bytes, the tree, the leaf. -/
def slhSelect (p : SlhSet) (r pks root m : List Byte) : List Byte × Nat × Nat :=
  let mdLen := cdiv (p.k * p.a) 8
  let treeLen := cdiv (p.hp * (p.d - 1)) 8
  let leafLen := cdiv p.hp 8
  let h := mgf1 sha256 32 (r ++ pks ++ sha256 (r ++ pks ++ root ++ m)) (mdLen + treeLen + leafLen)
  (h.take mdLen, ofBe ((h.drop mdLen).take treeLen) % 2 ^ (p.hp * (p.d - 1)), ofBe (h.drop (mdLen + treeLen)) % 2 ^ p.hp)
/-- A byte string in parts of 16 bytes. -/
def parts16 (n : Nat) (bs : List Byte) : List (List Byte) := (upto n).map fun k => (bs.drop (16 * k)).take 16
/-- Pure mode with an empty context string. -/
def slhPure (m : List Byte) : List Byte := [0, 0] ++ m
/-- slh_keygen_internal: the public key from SK.seed, SK.prf and PK.seed in 48 bytes. Log entry 97, PRESUMED. -/
def slhPublic (p : SlhSet) (seeds : List Byte) : List Byte :=
  let pks := seeds.drop 32
  pks ++ xmssNode (seeds.take 16) pks (p.d - 1) 0 p.hp 0
/-- slh_sign in pure mode, with the randomness drawn for it. Log entry 97, PRESUMED. -/
def slhSign (p : SlhSet) (seeds msg rand : List Byte) : List Byte :=
  let sk := seeds.take 16
  let pk := slhPublic p seeds
  let pks := pk.take 16
  let m := slhPure msg
  let r := (hmac256 ((seeds.drop 16).take 16) (rand ++ m)).take 16
  let q := slhSelect p r pks (pk.drop 16) m
  let fors := forsSign p sk pks q.2.1 q.2.2 q.1
  let pkf := forsPublic p pks q.2.1 q.2.2 q.1 fors
  r ++ fors.flatten ++ (htSign p sk pks p.d 0 q.2.1 q.2.2 pkf).flatten
/-- slh_verify in pure mode. Log entry 97, PRESUMED. -/
def slhVerify (p : SlhSet) (key msg sig : List Byte) : Bool :=
  let pks := key.take 16
  let q := slhSelect p (sig.take 16) pks (key.drop 16) (slhPure msg)
  let l := parts16 (p.sigLen / 16 - 1) (sig.drop 16)
  let nf := p.k * (1 + p.a)
  let pkf := forsPublic p pks q.2.1 q.2.2 q.1 (l.take nf)
  sig.length == p.sigLen && key.length == 32 && htRoot p pks p.d 0 q.2.1 q.2.2 pkf (l.drop nf) == key.drop 16

/-! ## The device keys (R571, R751, R752) -/

/-- HKDF of RFC 5869 with SHA-384, 48 bytes. Log entry 97, PRESUMED. -/
def hkdf384 (ikm salt info : List Byte) : List Byte := hmac384 (hmac384 salt ikm) (info ++ [1])
def asciiBytes (t : String) : List Byte := t.toList.map fun c => BitVec.ofNat 8 c.toNat
/-- The bytes derived for a device key: 0 RSA-3072 identity, 1 SLH-DSA-SHA2-128s, 2 SLH-DSA-SHA2-128f. The seed's most
significant byte comes first. Log entry 97, PRESUMED. -/
def derivedKey (k : Nat) : List Byte :=
  hkdf384 (beBytes 32 Config.seed.toNat) serialChars
    (asciiBytes (match k with | 0 => "JXF9 RSA3072" | 1 => "JXF9 SLH128S" | _ => "JXF9 SLH128F"))
def devicePublic (k : Nat) : List Byte :=
  match k with
  | 0 => rsaPublic (derivedKey 0)
  | 1 => slhPublic slh128s (derivedKey 1)
  | _ => slhPublic slh128f (derivedKey k)
/-- A signature with a device key, of as many bytes as its kind has: with the salt, or the randomness, that is drawn for
it. Log entry 97, PRESUMED. -/
def deviceSign (k : Nat) (msg : List Byte) (s : State) : List Byte × State :=
  let r := s.freeBytes (if k = 0 then 48 else 16)
  (match k with
    | 0 => fitBytes 384 (rsaSign (derivedKey 0) msg r.1)
    | 1 => fitBytes 7856 (slhSign slh128s (derivedKey 1) msg r.1)
    | _ => fitBytes 17088 (slhSign slh128f (derivedKey 2) msg r.1), r.2)
/-- R5, R752: a chain is this device's: the public key of its device certificate is the derived key, and the certificate
carries the serial number and the stepping code. Log entry 62, DESIGN CHOICE. -/
def chainMatches (area : List Byte) (k : Nat) : Bool :=
  let c := Config.chain area k
  Config.certKey c == devicePublic k && Config.certSerial c == serialChars &&
    Config.certStepping c == [Config.stepping 0, Config.stepping 1]

end Sys2Proof.Machine
end

