-- ==== Sys2Proof/Machine/Links.lean ====
section
/-! DEFINITION. Sys2Proof/Machine/Links.lean: the Ibcia ports (R600 to R624), the flits that arrive on them and what each
does at its target (R593 to R599, R609), and route epochs (R611 to R615). -/

namespace Sys2Proof.Machine

/-! ## Port states (R621 to R624) -/

def stDisabled : Nat := 0
def stDetect : Nat := 1
def stEqualize : Nat := 2
def stAlign : Nat := 3
def stConfig : Nat := 4
def stActive : Nat := 5
def stRetrain : Nat := 6
def stFailed : Nat := 7

def portState (s : State) (n : Nat) : Nat := s.fget (R.LNKSTAT_STATE n)
/-- A state is entered; in the training states the module's own frames go out (R621). -/
def enterState (s : State) (n st : Nat) : State :=
  let s := s.fset (R.LNKSTAT_STATE n) st
  let s := s.setPort n { s.port n with since := s.clk.tenths }
  if 1 ≤ st && st ≤ 4 then s.emit (.frame n st (s.fget (R.LNKCTL_GENMAX n)) (s.fget R.EPCFG_EPBASE)) else s

/-- R599: the first request of this module that has not left, among those of which `f` may be the flit, leaves now: its
time begins. A flit that its port discards has left as well (R623). -/
def markLeft (f : Flit) (now : Nat) : List Remote → List Remote
  | [] => []
  | q :: r =>
    if q.sentAt.isNone && q.typ == f.typ && q.dst == f.dst && q.key == f.key && q.vc == f.vc then
      { q with sentAt := some now } :: r
    else q :: markLeft f now r
def markSent (s : State) (f : Flit) : State :=
  if expectsAnswer f.typ && ownBlock s f.src then { s with remotes := markLeft f s.clk.tenths s.remotes } else s

/-- R623: the flits that port `m` has still to send leave with port `n`'s input buffers, in which they stand. -/
def dropFrom (s : State) (m n : Nat) : State :=
  let p := s.port m
  s.setPort m { p with tx := (p.tx.map fun q => (q.1, q.2.filter fun f => f.inPort != some n)).filter fun q => !q.2.isEmpty }
/-- R649, R661, R623: the port leaves ACTIVE for another state: its buffers are discarded. -/
def leaveActive (s : State) (n st : Nat) (inj : Bool) : State :=
  let s := (s.port n).tx.foldl (fun s q => q.2.foldl markSent s) s
  let s := s.setPort n { left := true }
  let s := (s.ports.map (·.1)).foldl (fun s m => dropFrom s m n) s
  let s := (enterState s n st).fset (R.LNKSTAT_XOFFIN n) 0
  let s := { s with redWait := s.redWait.filter fun w => !(w.1 == n / 12 && w.2.1 == n % 12) }
  let s := removeInput s n
  if s.anyJob then s.reportFrom .contained 0x41 n 1 (.ibcia n) 0 0 (s.endpoint 0) inj else s

/-- R622: an ACTIVE port retrains at its present generation. -/
def retrain (s : State) (n : Nat) (inj : Bool) : State :=
  let s := leaveActive s n stRetrain inj
  s.setPort n { s.port n with retraining := true }

/-- A port goes back to DETECT. -/
def toDetect (s : State) (n : Nat) : State :=
  let s := (enterState s n stDetect).fset (R.LNKSTAT_GEN n) 0
  s.setPort n { s.port n with gen2Step := false, retraining := false }

/-- R621: ACTIVE is entered, with the first LSEQ on both sides. Log entry 45, DESIGN CHOICE. -/
def toActive (s : State) (n : Nat) : State :=
  let s := enterState s n stActive
  s.setPort n { left := (s.port n).left, since := s.clk.tenths }

/-- R621: a training frame of the peer. -/
def trainStep (s : State) (n : Nat) (f : TrainFrame) : State :=
  let p := s.port n
  let st := portState s n
  if st = stDetect then
    let s := (s.fset (R.LNKSTAT_POLINV n) f.polinv).fset (R.LNKSTAT_LREV n) (if f.lrev then 1 else 0)
    enterState (s.fset (R.LNKSTAT_GEN n) 1) n stEqualize
  else if st = stEqualize then enterState s n stAlign
  else if st = stAlign then if p.gen2Step || p.retraining then toActive s n else enterState s n stConfig
  else if st = stConfig then
    let s := (s.fset (R.LNKPEER_VALID n) 1).fset (R.LNKPEER_PEERBLK n) f.peerBlk
    let s := s.fset (R.LNKPEER_PEERPORT n) f.peerPort
    if s.fget (R.LNKCTL_GENMAX n) = 2 && f.genMax = 2 then
      let s := s.setPort n { p with gen2Step := true }
      enterState (s.fset (R.LNKSTAT_GEN n) 2) n stEqualize
    else toActive s n
  else if st = stRetrain then enterState s n stEqualize
  else s
def execTrainingFrame (port : PortId) (frame : TrainFrame) (s : State) : Host.Outcome State Fault Refusal :=
  .next (if s.grave then s else trainStep s port frame)

/-- R621: the limit of a state, in ms. Log entry 46, DESIGN CHOICE. -/
def stateLimit (st : Nat) : Option Nat :=
  if st = stEqualize || st = stRetrain then some 200
  else if st = stAlign || st = stConfig then some 10
  else none
/-- R622: a state exceeds its limit. Log entry 46, DESIGN CHOICE. -/
def execTrainingLimitExpiry (port : PortId) (s : State) : Host.Outcome State Fault Refusal :=
  .next (match (if s.grave then none else stateLimit (portState s port)) with
    | none => s
    | some ms =>
      let s := advanceTo s ((s.port port).since + ms * 10000000)
      let k := (s.port port).returns + 1
      if 3 ≤ k then
        let s := (enterState s port stFailed).bump (R.TRNFAIL port)
        s.setPort port { s.port port with returns := 0, gen2Step := false, retraining := false }
      else
        let s := toDetect s port
        s.setPort port { s.port port with returns := k })

/-- R622: an ACTIVE port loses codeword lock. -/
def execCodewordLockLoss (port : PortId) (s : State) : Host.Outcome State Fault Refusal :=
  .next (if !portActive s port || s.grave then s
    else
      let pr := s.probe 0x41 port [1] 0
      retrain pr.2 port pr.1.isSome)

/-- R624. -/
def execLnkctlRetrain (req : Req) (port : PortId) (s : State) : Host.Outcome State Fault Refusal :=
  strobe s req (R.LNKCTL port) fun s =>
    s.gate 6 s.anyJob (fun inj s => busyRefused s (R.LNKSTAT_BUSYREF port) inj) fun s =>
      if portActive s port then retrain s port false
      else if portState s port = stFailed then toDetect s port
      else s

/-- R621, R799: the port is disabled. -/
def disablePort (s : State) (n : Nat) : State :=
  let s := if portActive s n then leaveActive s n stDisabled false else enterState s n stDisabled
  s.fset (R.LNKSTAT_GEN n) 0
def setPortEnable (s : State) (n : Nat) (on : Bool) : State :=
  let s := s.fset (R.LNKCTL_ENABLE n) (if on then 1 else 0)
  if !on then disablePort s n
  else if portState s n = stDisabled && !bitOf s.fencePorts n then toDetect s n
  else s
def execLnkctlEnable (req : Req) (port : PortId) (on : Bool) (s : State) : Host.Outcome State Fault Refusal :=
  strobe s req (R.LNKCTL port) fun s => setPortEnable s port on

/-- R608: failover at a Round boundary. -/
def failoverStep (s : State) (n : Nat) : State :=
  if portActive s n then
    (s.fset (R.LNKSTAT_FAILOVER n) 0).setPort n { s.port n with left := false }
  else if (s.port n).left then s.fset (R.LNKSTAT_FAILOVER n) 1
  else s

/-! ## Flow control (R600 to R602) -/

def bufDepth (v : Nat) : Nat := if v = 3 then 64 else 512
def xoffTh (s : State) (n v : Nat) : Nat :=
  s.fget (match v with | 0 => R.LNKFC0_XOFFTH n | 1 => R.LNKFC1_XOFFTH n | 2 => R.LNKFC2_XOFFTH n | _ => R.LNKFC3_XOFFTH n)
def xonTh (s : State) (n v : Nat) : Nat :=
  s.fget (match v with | 0 => R.LNKFC0_XONTH n | 1 => R.LNKFC1_XONTH n | 2 => R.LNKFC2_XONTH n | _ => R.LNKFC3_XONTH n)

/-- R619: a loss: the first is answered by a NAK. -/
def linkLoss (s : State) (n : Nat) : State :=
  let p := s.port n
  if p.lost then s
  else s.setPort n { p with lost := true, linkDue := true, nakDue := true, nakAt := s.clk.tenths }

/-- R618, R622, R631: a flit that overlaps an uncorrectable codeword is lost. `k` such codewords end with it and are counted.
Log entry 46, DESIGN CHOICE. -/
def uncorrectable (s : State) (n k : Nat) : State :=
  let s := s.bumpBy (R.FECUNC n) k
  let p := s.port n
  let l := (p.uncs.filter fun t => decide (s.clk.tenths < t + 10000000)) ++ List.replicate k s.clk.tenths
  let s := s.setPort n { p with uncs := l }
  let lim := s.fget (R.LNKRPL_UNCLIM n)
  if k != 0 && lim != 0 && lim < l.length then retrain s n false else linkLoss s n

/-- R600, R601: XOFF is asserted for a channel whose buffer holds XOFFTH flits or more. -/
def xoffUp (s : State) (n v : Nat) : State :=
  let p := s.port n
  if xoffTh s n v ≤ tget 0 p.rx v && !bitOf p.xoff v then
    s.setPort n { p with xoff := p.xoff + 2 ^ v, linkDue := true }
  else s
/-- R600, R601: XON is asserted for a channel whose buffer has drained to XONTH or fewer. -/
def xoffDown (s : State) (n v : Nat) : State :=
  let p := s.port n
  if bitOf p.xoff v && tget 0 p.rx v ≤ xonTh s n v then
    s.setPort n { p with xoff := p.xoff - 2 ^ v, linkDue := true }
  else s
/-- R600: a written threshold meets what the buffer holds. Log entry 45, DESIGN CHOICE. -/
def newThreshold (s : State) (n v : Nat) : State :=
  if !portActive s n then s else if xoffTh s n v ≤ tget 0 (s.port n).rx v then xoffUp s n v else xoffDown s n v

/-- R600: a flit enters the buffer of its channel. Log entry 45, DESIGN CHOICE. -/
def bufferIn (s : State) (n v : Nat) : State :=
  let p := s.port n
  xoffUp (s.setPort n { p with
    rx := tput 0 p.rx v (tget 0 p.rx v + 1), expect := (p.expect + 1) % 4096, lost := false, nakDue := false }) n v

/-! ## Flits for this module -/

/-- R585: the I/O die through which the die of an address answers. -/
def iodOfAddr (a : Nat) : Nat :=
  match tierOf a with
  | some (.hbm k) => iodOfDie (k / 2)
  | some (.ls c) => iodOfDie (dieOf c)
  | some (.cxl p) => p / 2
  | _ => 0
/-- R590: the endpoint is this module's. -/
def isModuleEp (s : State) (ep : Nat) : Bool := ep == ownEp s

/-- R594, R598: WRITE at its target. -/
def writeHere (s : State) (port : Nat) (f : Flit) : State :=
  let iod := port / 12
  let code := if isModuleEp s f.dst then inboundCode s f.addr f.len true else 3
  let refuse (s : State) : State := if isModuleEp s f.dst then inboundRefuse s f.addr f.len true else s
  if code != 0 then respond (refuse s) iod f f.dst code
  else
    let c := payloadCells f
    let as := (upto f.len).map (· + f.addr)
    let s := devWrite (devTouch s none 0 as (f.master s) (256 + port)) (cellsAt f.addr c.1) (badWords f.addr c.2)
    respond s (iodOfAddr f.addr) f f.dst 0

/-- R594, R597: READ at its target. -/
def readHere (s : State) (port : Nat) (f : Flit) : State :=
  let iod := port / 12
  let code := if isModuleEp s f.dst then inboundCode s f.addr f.len false else 3
  let refuse (s : State) : State := if isModuleEp s f.dst then inboundRefuse s f.addr f.len false else s
  if code != 0 then respond (refuse s) iod f f.dst code
  else
    let as := (upto f.len).map (· + f.addr)
    let r := devRead s none 0 as (f.master s) (256 + port)
    let h := mkHdr 3 f.vc (curTbl s) (r.1.poisoned f.addr f.len) f.src (specMem f.dst f.addr f.len)
    sendAnswer r.2 (iodOfAddr f.addr) ⟨h, padded (as.map (tget 0 r.1.mem)), none⟩

/-- R595: the words of an MSG flit with their poison. -/
def msgWords (f : Flit) : List (Nat × Bool) :=
  (upto (hf f.hdr 59 5 + 1)).map fun w => (ofLe ((f.payload.drop (8 * w)).take 8), bitOf f.hdr.toNat (28 + w))

/-- R420, R422, R595: MSG at its core. The first flit of a message joined by MORE waits for the second.
Log entry 47, DEDUCED. -/
def msgHere (s : State) (iod : Nat) (f : Flit) : State :=
  let c := f.dst % 256 - 0x80
  if !ownBlock s f.dst || f.dst % 256 < 0x80 then respond s iod f f.dst 3
  else
    let q := f.key
    let here := iodOfDie (dieOf c)
    let mine (p : Nat × Nat × Nat × List (Nat × Bool)) : Bool := p.1 == f.src && p.2.1 == c && p.2.2.1 == q
    if bitOf f.hdr.toNat 58 then
      respond { s with msgParts := (s.msgParts.filter fun p => !mine p) ++ [(f.src, c, q, msgWords f)] } here f f.dst 0
    else
      let first := match s.msgParts.find? mine with | some p => p.2.2.2 | none => []
      let s := { s with msgParts := s.msgParts.filter fun p => !mine p }
      let s' := deliver s c q (first ++ msgWords f) (f.master s)
      respond s' here f f.dst (if (s.mq c q).length < (s'.mq c q).length then 0 else 4)

/-- R432, R437, R440: CTR at its counter; an amount is signed. Log entry 47, DEDUCED. -/
def ctrHere (s : State) (iod : Nat) (f : Flit) : State :=
  if !isModuleEp s f.dst then respond s iod f f.dst 3
  else
    let n := f.key
    let v := hf f.hdr 20 32
    let code := if (s.ctr n).owner.isSome then 0 else 5
    let s := if hf f.hdr 52 2 = 0 then ctrAdd s n (signedOf v 32) (f.master s) else ctrSet s n (BitVec.ofNat 32 v) (f.master s)
    respond s (iodOfDie (ctrDie n)) f f.dst code

/-- R607: a flit is routed by its DST: into the module, onward, or discarded with an answer if it expects one. -/
def routeFlit (s : State) (iod : Nat) (f : Flit) (here : State → State) : State :=
  let w := lookupWay 3 s iod f
  match w.1 with
  | .here => here w.2
  | .port m => txPut w.2 m f
  | .lost => if expectsAnswer f.typ then respond w.2 iod f (ownEp s) 1 else w.2

/-- R594, R662, R664: an MCWRITE delivered into the module. -/
def mcDeliver (s : State) (port : Nat) (f : Flit) : State :=
  let code := inboundCode s f.addr f.len true
  if code != 0 then inboundRefuse s f.addr f.len true
  else
    let c := payloadCells f
    let as := (upto f.len).map (· + f.addr)
    retsSee (devWrite (devTouch s none 0 as (f.master s) (256 + port)) (cellsAt f.addr c.1) (badWords f.addr c.2)) (f.dst % 4096) f.addr c.1

/-- R609: an MCWRITE at an I/O die. The bridge is crossed at most `fuel` − 1 times. Log entry 47, DEDUCED. -/
def mcast (port : Nat) : Nat → State → Nat → Flit → State
  | 0, s, _, _ => s
  | k + 1, s, iod, f =>
    let g := f.dst % 4096
    let m := f.master s
    let c := tableCheck (countStale (crossbarIn s iod f.vc m) f.epoch) iod 1 g (mcastOwner s iod g) m
    let e := if c.1 then 0 else mcastEntry c.2 iod (tableOf s f.epoch) g
    let s := c.2
    if !bitOf e 15 then s.bump R.RTMISS
    else
      let s := (bitList 12 e).foldl (fun s p => copyOut s (iod * 12 + p) f) s
      let s := if bitOf e 14 then mcDeliver s port f else s
      if bitOf e 13 then mcast port k s (1 - iod) f else s

/-! ## Arrival (R592, R593, R600 to R602, R618) -/

/-- What a flit's header check at the port has come to: the state, and whether the flit goes on. Codewords corrected are
counted (R631). -/
def portCheck (s : State) (n : Nat) (i : FlitIn) : State × Bool :=
  if !portActive s n || s.grave then (s, false)
  else
    let s := s.bumpBy (R.FECCOR n) i.cor
    let pr := s.probe 0x41 n [1] 0
    if pr.1.isSome then (retrain pr.2 n true, false)
    else if i.unc || i.uncw != 0 then (uncorrectable s n i.uncw, false)
    else if crc16 i.hdr != hf i.hdr 0 16 then (linkLoss (s.bump (R.HDRCRC n)) n, false)
    else (s, true)

/-- R618: the receiver takes a flit in LSEQ order into its channel's buffer. -/
def sequence (s : State) (n : Nat) (f : Flit) : State × Bool :=
  let p := s.port n
  let d := (f.lseq + 4096 - p.expect) % 4096
  if d != 0 then (if d < 2048 then linkLoss s n else s, false)
  else if bufDepth f.vc ≤ tget 0 p.rx f.vc then (linkLoss (s.bump (R.FCDROP n)) n, false)
  else (bufferIn s n f.vc, true)

/-- R593, R597: a flit that expects an answer and is discarded at this hop is answered from here, on a virtual channel that
an answer may take. Log entry 47, DEDUCED. -/
def discarded (s : State) (iod : Nat) (f : Flit) : State :=
  if !expectsAnswer f.typ then s
  else
    let vc := if f.typ = 4 || 1 < f.vc then 1 else f.vc
    respond s iod { f with hdr := BitVec.ofNat 128 (setBits f.hdr.toNat 122 2 vc) } (ownEp s) 1

/-- A flit of a type arrives: `here` is what it does once accepted. A flit of another type is no case of the row. -/
def arrive (s : State) (n : Nat) (typ : Nat → Bool) (i : FlitIn) (here : State → Flit → State) : State :=
  let f : Flit := ⟨i.hdr, fitBytes 240 i.payload, some n⟩
  let c := portCheck s n i
  if !c.2 || !typ f.typ then c.1
  else
    let q := sequence c.1 n f
    if !q.2 then q.1
    else
      let s := q.1
      if !trafficOn s && f.typ != 10 then s
      else
        let pr := s.probe 0x40 n [1] 0
        if !flitOk f || answerVcBad s f || pr.1.isSome then
          discarded ((pr.2.bump R.BADFLIT).reportFrom .notice 0x40 n 1 .none 8 0 (f.master s) pr.1.isSome) (n / 12) f
        else here s f

def execWriteFlit (port : PortId) (flit : FlitIn) (s : State) : Host.Outcome State Fault Refusal :=
  .next (arrive s port (· == 1) flit fun s f => routeFlit s (port / 12) f fun s => writeHere s port f)
def execReadFlit (port : PortId) (flit : FlitIn) (s : State) : Host.Outcome State Fault Refusal :=
  .next (arrive s port (· == 2) flit fun s f => routeFlit s (port / 12) f fun s => readHere s port f)
def execRdataFlit (port : PortId) (flit : FlitIn) (s : State) : Host.Outcome State Fault Refusal :=
  .next (arrive s port (· == 3) flit fun s f => routeFlit s (port / 12) f fun s => rdataHere s f)
def execMsgFlit (port : PortId) (flit : FlitIn) (s : State) : Host.Outcome State Fault Refusal :=
  .next (arrive s port (· == 4) flit fun s f => routeFlit s (port / 12) f fun s => msgHere s (port / 12) f)
def execCtrFlit (port : PortId) (flit : FlitIn) (s : State) : Host.Outcome State Fault Refusal :=
  .next (arrive s port (· == 5) flit fun s f => routeFlit s (port / 12) f fun s => ctrHere s (port / 12) f)
def execAckFlit (port : PortId) (flit : FlitIn) (s : State) : Host.Outcome State Fault Refusal :=
  .next (arrive s port (· == 6) flit fun s f => routeFlit s (port / 12) f fun s => ackHere s f)
def execErrFlit (port : PortId) (flit : FlitIn) (s : State) : Host.Outcome State Fault Refusal :=
  .next (arrive s port (· == 7) flit fun s f => routeFlit s (port / 12) f fun s => ackHere s f)
def execMcwriteFlit (port : PortId) (flit : FlitIn) (s : State) : Host.Outcome State Fault Refusal :=
  .next (arrive s port (· == 8) flit fun s f => mcast port 4 s (port / 12) f)
def execRedFlit (port : PortId) (flit : FlitIn) (s : State) : Host.Outcome State Fault Refusal :=
  .next (arrive s port (· == 9) flit fun s f => redArrive s (port / 12) (port % 12) f)
/-- R593: an MGMT flit for this module is passed to its MSP, which the fabric does not interpret. Reserved types arrive
here, to be discarded. Log entry 47, DEDUCED. -/
def execMgmtFlit (port : PortId) (flit : FlitIn) (s : State) : Host.Outcome State Fault Refusal :=
  .next (arrive s port (fun t => decide (10 ≤ t)) flit fun s f => routeFlit s (port / 12) f fun s => s)

/-! ### LINK (R601, R604, R619, R620) -/

/-- R601, R604: the peer's mask. Log entry 45, DESIGN CHOICE. -/
def takeXoff (s : State) (n mask : Nat) : State :=
  let old := s.fget (R.LNKSTAT_XOFFIN n)
  let s := s.fset (R.LNKSTAT_XOFFIN n) mask
  let s := s.setPort n { s.port n with heldIn := (s.port n).heldIn ++ [(2, mask)] }
  let pr := s.probe 0x40 n [2] 0
  if (bitOf mask 0 && !bitOf old 0) || pr.1.isSome then
    (pr.2.bump (R.SVIOL n)).reportFrom .notice 0x40 n 2 .none 8 0 (s.endpoint 0) pr.1.isSome
  else s

/-- The kept flits from an LSEQ on. -/
def keptFrom (seq : Nat) : List (Flit × Nat) → List Flit
  | [] => []
  | (f, _) :: r => if f.lseq = seq then f :: r.map (·.1) else keptFrom seq r

/-- R619, R620: a NAK. -/
def takeNak (s : State) (n seq : Nat) : State :=
  let p := s.port n
  let pr := s.probe 0x41 n [2] 0
  let kept := keptFrom seq p.replay
  if pr.1.isSome || (kept.isEmpty && seq != p.nextSeq) then
    let s := retrain pr.2 n false
    s.reportFrom .contained 0x41 n 2 (.ibcia n) 0 0 (s.endpoint 0) pr.1.isSome
  else if kept.isEmpty then s
  else (s.bump (R.REPLAY n)).setPort n { p with resend := kept }

def linkHere (s : State) (n : Nat) (f : Flit) : State :=
  let s := takeXoff s n (hf f.hdr 84 4)
  let s := if (f.lseq + 4096 - (s.port n).expect) % 4096 != 0 && (f.lseq + 4096 - (s.port n).expect) % 4096 < 2048
    then linkLoss s n else s
  if bitOf f.hdr.toNat 83 then takeNak s n (hf f.hdr 71 12) else s

def execLinkFlit (port : PortId) (flit : FlitIn) (s : State) : Host.Outcome State Fault Refusal :=
  .next (
    let f : Flit := ⟨flit.hdr, fitBytes 240 flit.payload, some port⟩
    let c := portCheck s port flit
    if !c.2 || f.typ != 0 then c.1
    else
      let s := c.1
      let pr := s.probe 0x40 port [1] 0
      if !flitOk f || pr.1.isSome then
        (pr.2.bump R.BADFLIT).reportFrom .notice 0x40 port 1 .none 8 0 (s.endpoint 0) pr.1.isSome
      else linkHere s port f)

/-- R619: 500 ns without the expected flit. -/
def execNakRepeat (port : PortId) (s : State) : Host.Outcome State Fault Refusal :=
  .next (if !portActive s port || s.grave || !(s.port port).lost then s
    else
      let s := advanceTo s ((s.port port).nakAt + 5000)
      s.setPort port { s.port port with linkDue := true, nakDue := true, nakAt := s.clk.tenths })

/-- R618: the oldest kept flit is released RPRET ns after it was sent. Log entry 3, DESIGN CHOICE. -/
def execReplayRelease (port : PortId) (s : State) : Host.Outcome State Fault Refusal :=
  ifAlive s (match (s.port port).replay with
    | [] => s
    | (_, t) :: _ =>
      let s := advanceTo s (t + s.fget (R.LNKRPL_RPRET port) * 10)
      s.setPort port { s.port port with replay := (s.port port).replay.tail })

/-! ## Sending (R601, R603, R618) -/

/-- R600, R646: the flits that must stay in a port's input buffer of a channel: those that an output of the I/O die has still to
send, and RED flits that wait for slots. Log entry 45, DESIGN CHOICE. -/
def staying (s : State) (n v : Nat) : Nat :=
  ((s.ports.flatMap fun p => (tget [] p.2.tx v).filterMap fun f => if f.inPort = some n then some f.lseq else none).foldl
    nins []).length +
  (if v = 2 then (s.redWait.filter fun w => w.1 == n / 12 && w.2.1 == n % 12).length else 0)
/-- R600: one flit leaves each channel's buffer that holds one which need not stay. -/
def drainOne (s : State) (n v : Nat) : State :=
  let p := s.port n
  let k := tget 0 p.rx v
  if k ≤ staying s n v then s else xoffDown (s.setPort n { p with rx := tput 0 p.rx v (k - 1) }) n v

/-- R603, R618: a queued flit of a channel is sent with the next LSEQ and kept. Log entry 46, DESIGN CHOICE. -/
def sendFrom (s : State) (n v : Nat) : State :=
  let p := s.port n
  match tget [] p.tx v with
  | [] => s
  | f :: r =>
    let g : Flit := ⟨sealHdr f.hdr p.nextSeq, f.payload, none⟩
    let waits := !(tget [] p.tx 1).isEmpty
    let p := { p with
      tx := tput [] p.tx v r, nextSeq := (p.nextSeq + 1) % 4096, replay := p.replay ++ [(g, s.clk.tenths)]
      passed := if v = 1 || !waits then 0 else p.passed + 1 }
    (markSent (s.setPort n p) f).emit (.flit n g.hdr g.payload)

/-- R601, R618: the LINK flit that is due. -/
def sendLink (s : State) (n : Nat) : State :=
  let p := s.port n
  let spec := p.xoff % 16 * 2 ^ 68 + (if p.nakDue then 2 ^ 67 else 0) + (if p.nakDue then p.expect * 2 ^ 55 else 0)
  let h := sealHdr (mkHdr 0 0 (curTbl s) false 0 spec) p.nextSeq
  let waits := !(tget [] p.tx 1).isEmpty
  (s.setPort n { p with linkDue := false, nakDue := false, passed := if waits then p.passed + 1 else 0 }).emit
    (.flit n h (List.replicate 240 0))

/-- R601, R603, R619, R788: one flit boundary of a port's transmitter. Log entry 45, DESIGN CHOICE. -/
def flitBoundary (s : State) (n : Nat) : State :=
  let p := s.port n
  let due := p.heldIn.filter (·.1 == 1)
  let p := { p with
    heldIn := (p.heldIn.filter (·.1 != 1)).map fun e => (e.1 - 1, e.2)
    held := match due.getLast? with | some e => e.2 | none => p.held }
  let s := [0, 1, 2, 3].foldl (fun s v => drainOne s n v) (s.setPort n p)
  let p := s.port n
  let resend := if trafficOn s then p.resend else p.resend.filter (·.vc == 3)
  let can (v : Nat) : Bool :=
    !(tget [] p.tx v).isEmpty && !bitOf p.held v && (v == 3 || trafficOn s) && decide (p.replay.length < 1024)
  if p.linkDue then sendLink s n
  else
    match resend with
    | f :: r =>
      if bitOf p.held f.vc then s
      else (s.setPort n { p with resend := r, passed := p.passed + (if (tget [] p.tx 1).isEmpty then 0 else 1) }).emit
        (.flit n f.hdr f.payload)
    | [] =>
      if can 1 && s.fget (R.LNKCTL_UMIN n) + 1 ≤ p.passed then sendFrom s n 1
      else if can 3 then sendFrom s n 3
      else if can 2 then sendFrom s n 2
      else if can 0 then sendFrom s n 0
      else if can 1 then sendFrom s n 1
      else s
def execFlitBoundary (port : PortId) (s : State) : Host.Outcome State Fault Refusal :=
  .next (if portActive s port && !s.grave then flitBoundary s port else s)

/-! ## Timeouts and route epochs -/

/-- Of the requests that have left the module, the first that left earliest, with its instant.
Log entry 48, DESIGN CHOICE. -/
def eldest : List Remote → Option (Remote × Nat)
  | [] => none
  | q :: r =>
    match q.sentAt, eldest r with
    | none, e => e
    | some t, none => some (q, t)
    | some t, some (p, u) => if t ≤ u then some (q, t) else some (p, u)
/-- R599: the request that left the module first, of those that have had no response. Log entry 48, DESIGN CHOICE. -/
def execRemoteTimeout (s : State) : Host.Outcome State Fault Refusal :=
  ifAlive s (match eldest s.remotes with
    | none => s
    | some (q, t) =>
      let s := advanceTo s (t + s.fget R.RMTCFG_RMTTO * 10000)
      answerWho { s with remotes := s.remotes.filter fun p => p.id != q.id } q.id q.who 16 [])

/-- The first `k` held flits leave in order; those that still wait stay held, so that a store is counted once (R507). -/
def releaseSome : Nat → State → State
  | 0, s => s
  | k + 1, s =>
    match s.held with
    | [] => s
    | h :: r => releaseSome k (sendRequest { s with held := r } h.1 h.2.2.2 h.2.1 h.2.2.1 h.2.1.len)
/-- The held flits leave in order. -/
def releaseHeld (s : State) : State := releaseSome s.held.length { s with epochHold := false }
/-- R615: an old-epoch unscheduled request of WRITE, MSG or CTR type awaits its answer. -/
def oldPending (s : State) : Bool :=
  s.remotes.any fun q => q.vc == 1 && q.typ != 2 && q.old
def execEpochHoldRelease (s : State) : Host.Outcome State Fault Refusal :=
  ifAlive s (if s.epochHold && !oldPending s then releaseHeld s else s)

/-- RTGORND (R628). -/
def rtgornd (s : State) : Nat := s.wideGet 6 0x01
/-- R612: while Rounds do not run, none has begun. Log entry 49, DEDUCED. -/
def execRtctlArm (req : Req) (s : State) : Host.Outcome State Fault Refusal :=
  strobe s req R.RTCTL fun s =>
    s.gate 6 (decide (2 ≤ s.fget R.RNDSTAT_STATE) && decide (rtgornd s ≤ s.round.num.toNat)) (fun inj s => busyRefused s R.RTSTAT_BUSYREF inj) fun s =>
      s.fset R.RTSTAT_ARMED 1

/-- R606, R609, R627: the entry that RTSEL names, and writes of it. Log entry 99, DEDUCED. -/
def rtEntry (s : State) : Nat :=
  let i := s.fget R.RTSEL_INDEX
  let t := s.fget R.RTSEL_TBL
  let d := s.fget R.RTCTL_IOD
  if s.fbit R.RTSEL_KIND then (if i < 4096 then mcastEntry s d t i else 0) else routeEntry s d t i
/-- Log entry 79, DEDUCED; 99, DEDUCED. -/
def rtWrite (s : State) (v : W32) : State :=
  let i := s.fget R.RTSEL_INDEX
  let t := s.fget R.RTSEL_TBL
  let d := s.fget R.RTCTL_IOD
  let n := v.toNat % 65536
  s.gate 6 (tableLocked s t) (fun inj s => busyRefused s R.RTSTAT_BUSYREF inj) fun s =>
    if s.fbit R.RTSEL_KIND then
      if i < 4096 then { s with mcast := tput 0 s.mcast (tblKey d t i 4096) (BitVec.ofNat 16 (n &&& 0xEFFF)) } else s
    else
      let r := keepFields s R.RTDATA (routeEntry s d t i) (n &&& 0xFFF0) (routeFields n)
      { r.2 with routes := tput 0 r.2.routes (tblKey d t i (2 ^ 20)) (BitVec.ofNat 16 r.1) }
def execRtdataAccess (req : Req) (write : Option W32) (s : State) : Host.Outcome State Fault Refusal :=
  .next (match accessEnds s req R.RTDATA write.isSome (write.map fun _ => false) with
    | some s' => s'
    | none =>
      let s := match write with
        | none => { s with reply := .data (leBytes 4 (rtEntry s)) }
        | some v => rtWrite s v
      s.fset R.RTSEL_INDEX ((s.fget R.RTSEL_INDEX + 1) % 2 ^ 20))

end Sys2Proof.Machine
end

