-- ==== Sys2Proof/Machine/Ledger.lean ====
section
/-! DEFINITION. Sys2Proof/Machine/Ledger.lean: the ledger unit (R548 to R580): batches cut from the input ring, the collection
and delivery of records, blocks and their seals, and signed heads. -/

namespace Sys2Proof.Machine

/-! ## Configuration and the unit's own accesses -/

/-- R550, R578, R580: the configuration in force while context D is loaded. -/
def ledCfg (s : State) : LedCfg :=
  { dcores := bitList 128 (s.wideGet 4 0x12 + s.wideGet 4 0x13 * 2 ^ 64)
    ringBase := s.wideGet 4 1, ringEnt := s.wideGet 4 2, tailAddr := s.wideGet 4 3, laneBase := s.wideGet 4 4
    outBase := s.wideGet 4 5, outEnt := s.wideGet 4 6, sigBase := s.wideGet 4 9, sigEnt := s.wideGet 4 0xA
    bq := s.fget R.LEDCFG0_BQ, hist := s.fget R.LEDCFG0_HIST, batchMax := s.fget R.LEDCFG0_BATCHMAX
    lcBase := s.fget R.LEDCFG1_LCBASE, doneBase := s.fget R.LEDCFG1_DONEBASE
    slots := s.fget R.LEDCFG2_SLOTM1 + 1, sigPer := s.fget R.LEDCFG2_SIGPER }

/-- OUTCONS and SIGCONS, which host software writes (R563, R571). -/
def outCons (s : State) : Nat := s.wideGet 4 7
def sigCons (s : State) : Nat := s.wideGet 4 0xB

/-- Bytes read by the unit for context D, with those of poisoned words zero, and whether some word was poisoned. -/
def ledRead (s : State) (as : List Nat) : List Byte × Bool × State :=
  let r := devRead s none 0 as (s.endpoint 0)
  let bad (a : Nat) : Bool := r.1.poison.contains (a / 4)
  (as.map fun a => if bad a then 0 else tget 0 r.1.mem a, as.any bad, r.2)

/-- Consecutive addresses. -/
def span (a n : Nat) : List Nat := (upto n).map (· + a)

/-- A fault of the unit (detector 0x39). -/
def ledFault (s : State) (cls : Cls) (cause : Nat) (inj : Bool) : State :=
  s.reportFrom cls 0x39 0 cause .d 0xA 0 (s.endpoint 0) inj
/-- R806: the unit's check for a cause: whether it has come, `real` or injected, and then what it does. -/
def ledCheck (s : State) (cause : Nat) (real : Bool) (yes : Bool → State → State) : State :=
  let r := s.check 0x39 0 [cause] 0 (fun _ => false) (if real then some cause else none)
  if r.1.isSome then yes r.2.1 r.2.2 else r.2.2

def ledMsi (s : State) (f : Fld) : State := if s.fbit f then sendMsix s (s.fget R.LEDCFG3_VEC) else s

/-- Replacement of bytes at an offset of a byte list. -/
def patch (l : List Byte) (o : Nat) (bs : List Byte) : List Byte := l.take o ++ bs ++ l.drop (o + bs.length)

/-! ## Batches -/

def doneCtr (c : LedCfg) (b : Nat) : Nat := c.doneBase + b
/-- R557, R560: lane and done counters of a bank are set to 0. -/
def zeroBank (s : State) (b : Nat) : State :=
  (doneCtr s.led.cfg b :: laneCtrs s.led.cfg b).foldl (fun s n => ctrSet s n 0 (s.endpoint 0)) s

/-- R553: RELSEQ. -/
def relSeq (l : Led) : Nat :=
  (match l.batches.find? fun b => !(b.done && b.hashed) with
   | some b => b.first
   | none => l.cutEnd) - l.cfg.hist

/-- A batch that is complete, hashed and delivered is forgotten. -/
def pruneBatches (l : List LBatch) : List LBatch := l.filter fun b => !(b.done && b.hashed && b.delivered)
def updBatch (l : List LBatch) (rnd : Nat) (f : LBatch → LBatch) : List LBatch :=
  pruneBatches (l.map fun b => if b.rnd = rnd then f b else b)
/-- The block of an id changed: a final block may have its Round's number in common with another (R575). -/
def updBlock (l : List LBlock) (id : Nat) (f : LBlock → LBlock) : List LBlock :=
  l.map fun b => if b.id = id then f b else b

/-- R557, R558: the counts of a bank's lanes as they are read. -/
def laneCounts (s : State) : List Nat → List Nat × State
  | [] => ([], s)
  | n :: r =>
    let s := ctrCheck s n (s.endpoint 0)
    let v := (s.ctr n).read.toNat
    let k := s.led.cfg.slots
    let s := ledCheck s 3 (decide (v > k)) fun inj s => ledFault (s.fset R.LEDSTAT_LANEOVF 1) .contained 3 inj
    let t := laneCounts s r
    (min v k :: t.1, t.2)

/-- The records of lanes i, i + 1, … with their LATE marks (R559, R564), numbered from LSEQ q. -/
def laneItems (blk bank rnd : Nat) (cores : List Nat) (snap : Option (List Nat)) (late : Bool) :
    Nat → Nat → List Nat → List LItem
  | _, _, [] => []
  | i, q, n :: r =>
    ((upto n).map fun j =>
      LItem.record blk (cores.getD i 0) i bank j
        (late || (match snap with | none => false | some l => decide (l.getD i 0 ≤ j))) (q + j) rnd) ++
    laneItems blk bank rnd cores snap late (i + 1) (q + n) r

def itemLate : LItem → Bool
  | .record _ _ _ _ _ l _ _ => l
  | _ => false

/-- R557, R560, R564: the records of a batch are collected into the open block. Log entry 72, DEDUCED. -/
def collectBatch (s : State) (b : LBatch) (late : Bool) : State :=
  let bank := b.rnd % 2
  let r := laneCounts s (laneCtrs s.led.cfg bank)
  let s := zeroBank r.2 bank
  let l := s.led
  let blk := match l.blocks.getLast? with | some k => k.id | none => 0
  let its := laneItems blk bank b.rnd l.cfg.dcores b.snap late 0 l.nextLseq r.1
  let n := its.length
  let any := its.any itemLate
  s.setLed { l with
    queue := l.queue ++ its ++ [LItem.batchEnd b.rnd]
    nextLseq := l.nextLseq + n
    batches := updBatch l.batches b.rnd fun b => { b with done := true }
    blocks := updLast (fun k => { k with
      nrec := k.nrec + n, first := k.first <|> (if n = 0 then none else some l.nextLseq)
      flags := k.flags ||| (if any then 1 else 0) }) l.blocks }

/-- R557: the oldest open batch completes when its done counter reaches NCORE. -/
def batchComplete (s : State) : State :=
  match s.led.batches.find? (!·.done) with
  | none => s
  | some b =>
    let n := doneCtr s.led.cfg (b.rnd % 2)
    if !s.led.live || s.led.cfg.dcores.length > (s.ctr n).read.toNat then s else collectBatch s b false
def execBatchComplete (s : State) : Host.Outcome State Fault Refusal := ifAlive s (batchComplete s)

/-- R560: every open batch is collected, its records late. -/
def collectOpen (s : State) : State :=
  (s.led.batches.filter (!·.done)).foldl (fun s b => collectBatch s b true) (blockFlag s 2)


/-! ## Boundaries -/

/-- A block opens for the current Round (R567, R574). -/
def openBlock (s : State) : State :=
  let l := s.led
  s.setLed { l with
    start := false
    blocks := l.blocks ++ [{ id := (match l.blocks.getLast? with | some k => k.id | none => 0) + 1
                             rnd := s.round.num.toNat, flags := if l.start then 0x10 else 0, evFirst := l.cutEnd,
                             idig := some (sha384 []) }] }
/-- The open block closes; its seal waits behind its records (R567). Log entry 72, DEDUCED. -/
def closeBlock (s : State) (dtime : Nat) : State :=
  let l := s.led
  match l.blocks.getLast? with
  | none => s
  | some b => s.setLed { l with
      blocks := updLast (fun k => { k with dtime := dtime, first := some (k.first.getD l.nextLseq) }) l.blocks
      queue := l.queue ++ [.seal b.id] }

/-- R552: the notice of a batch. Log entry 72, DEDUCED. -/
def batchNotice (s : State) (tag bank first count : Nat) : State :=
  let w1 := tag % 65536 * 2 ^ 46 + bank % 2 * 2 ^ 44 + count % 8192 * 2 ^ 31
  s.led.cfg.dcores.foldl (fun s c =>
    match mqPhys s c .d s.led.cfg.bq with
    | some q => deliver s c q [(first % 2 ^ 62, false), (w1, false)] (s.endpoint 0)
    | none => s) s

/-- R550 to R554, R566: the cut of the current Round. -/
def cutBatch (s : State) : State :=
  let c := s.led.cfg
  let r := ledRead s (span c.tailAddr 8)
  let s := r.2.2
  let tail0 := ofLe r.1
  let first := s.led.cutEnd
  let bad := s.check 0x39 0 [1] 0 (fun _ => false) (if tail0 < first then some 1 else none)
  let s := if bad.1.isSome then ledFault (bad.2.2.fset R.LEDSTAT_TAILBAD 1) .notice 1 bad.2.1 else bad.2.2
  let tail := if bad.1.isSome then first else tail0
  let s := ledCheck s 2 (decide (tail - relSeq s.led > c.ringEnt)) fun inj s =>
    ledFault (s.fset R.LEDSTAT_RINGOVF 1) .contained 2 inj
  if (s.led.batches.filter (!·.delivered)).length ≥ 2 then blockFlag (s.bump R.LEDDEFER) 4
  else
    let n := min (tail - first) c.batchMax
    let spill := tail - first - n
    let s := if spill = 0 then s else blockFlag (s.bumpBy R.LEDSPILL spill) 0x80
    let l := s.led
    let rnd := s.round.num.toNat
    let b : LBatch := { rnd := rnd, first := first, count := n, hashed := n == 0, done := n == 0, delivered := n == 0 }
    let s := s.setLed { l with
      cutEnd := first + n
      batches := pruneBatches (l.batches ++ [b])
      blocks := updLast (fun k => { k with evFirst := first, evCount := n,
                                           idig := if n = 0 then k.idig else none }) l.blocks }
    if n = 0 then s else batchNotice s s.rtag (rnd % 2) first n

/-- R560: the batch before the previous one is still incomplete. -/
def forceDue (s : State) : Bool := s.led.batches.any fun b => !b.done && decide (b.rnd + 2 ≤ s.round.num.toNat)
def forceClose (s : State) (inj : Bool) : State :=
  let s := collectOpen s
  let s := zeroBank (zeroBank s 0) 1
  ledFault (((s.setLed { s.led with suspended := true }).fset R.LEDSTAT_FORCED 1).bump R.LEDFORCE) .contained 4 inj

/-- Action 4 of R82: the block of the ending Round closes, where one ran, and the batch of the Round that opens is cut. -/
def ledgerBoundary (s : State) (ran : Bool) : State :=
  if !s.led.live || s.stopped then s
  else
    let s := openBlock (if ran then closeBlock s s.round.stamp else s)
    if !s.fbit R.LEDCTL_ENABLE || s.led.suspended then s
    else
      let r := s.check 0x39 0 [4] 0 (fun _ => false) (if forceDue s then some 4 else none)
      if r.1.isSome then forceClose r.2.2 r.2.1 else cutBatch r.2.2

/-! ## Delivery -/

/-- R566: the output ring has room. -/
def outRoom (s : State) : Bool := decide (s.led.outProd - outCons s < s.led.cfg.outEnt)
/-- An entry is written to the output ring (R563). -/
def putEntry (s : State) (bs : List Byte) : State :=
  let l := s.led
  let s := s.setLed { l with outProd := l.outProd + 1, waiting := false }
  unitWrite s (l.cfg.outBase + l.outProd % l.cfg.outEnt * 256) bs []
/-- Log entry 72, DEDUCED. -/
def putOutProd (s : State) : State :=
  unitWrite s (s.led.cfg.outBase + s.led.cfg.outEnt * 256) (leBytes 8 s.led.outProd) []
/-- R566: delivery waits; reported once. Log entry 72, DEDUCED. -/
def outFull (s : State) (inj : Bool) : State :=
  if s.led.waiting then s
  else ledFault ((putOutProd (s.setLed { s.led with waiting := true })).fset R.LEDSTAT_OUTFULL 1) .notice 5 inj
/-- The check for room in the output ring before a delivery. -/
def ifRoom (s : State) (ok : State → State) : State :=
  let r := s.check 0x39 0 [5] 0 (fun _ => true) (if outRoom s then none else some 5)
  if r.1.isSome then outFull r.2.2 r.2.1 else ok r.2.2

/-- R561, R565: a record as it is delivered. -/
def stampRecord (bs : List Byte) (core : Nat) (late poison : Bool) (lseq rnd : Nat) : List Byte :=
  let fl := (bs.getD 2 0).toNat / 4 * 4 + (if late then 1 else 0) + (if poison then 2 else 0)
  patch (patch (patch (patch (patch bs 0 (leBytes 2 1)) 2 (leBytes 1 fl)) 4 (leBytes 2 core)) 8 (leBytes 8 lseq)) 0x10
    (leBytes 8 rnd)

/-- R564, R565: one record is stamped, written and fed to the chain hash. -/
def deliverRecord (s : State) (blk core lane bank slot : Nat) (late : Bool) (lseq rnd : Nat) : State :=
  let c := s.led.cfg
  let r := ledRead s (span (c.laneBase + ((2 * lane + bank) * c.slots + slot) * 256) 256)
  let bs := stampRecord r.1 core late r.2.1 lseq rnd
  let s := (putEntry r.2.2 bs).bump R.LEDREC
  let s := if late then s.bump R.LEDLATE else s
  s.setLed { s.led with blocks := updBlock s.led.blocks blk fun k => { k with bytes := k.bytes ++ bs } }

def ledPop (s : State) : State := s.setLed { s.led with queue := s.led.queue.tail }

/-- R564: the records at the front of the queue, to the end of a batch or while the ring has room. -/
def deliverRun : Nat → State → State
  | 0, s => s
  | k + 1, s =>
    match s.led.queue with
    | .record blk core lane bank slot late lseq rnd :: _ =>
      ifRoom s fun s => deliverRun k (deliverRecord (ledPop s) blk core lane bank slot late lseq rnd)
    | .batchEnd rnd :: _ =>
      let s := ledPop s
      let s := s.setLed { s.led with batches := updBatch s.led.batches rnd fun b => { b with delivered := true } }
      ledMsi (putOutProd s) R.LEDCFG3_IEREC
    | _ => s
def recordDelivery (s : State) : State := deliverRun s.led.queue.length s
/-- Log entry 73, DESIGN CHOICE. -/
def execRecordDelivery (s : State) : Host.Outcome State Fault Refusal := .next (if s.grave then s else recordDelivery s)

/-- R568, R570: the events of the oldest cut not yet hashed. Log entry 73, DESIGN CHOICE. -/
def idigComplete (s : State) : State :=
  match s.led.blocks.find? (·.idig.isNone) with
  | none => s
  | some b =>
    let c := s.led.cfg
    let r := ledRead s ((upto b.evCount).flatMap fun k => span (c.ringBase + (b.evFirst + k) % c.ringEnt * 256) 256)
    let s := r.2.2
    s.setLed { s.led with
      batches := updBatch s.led.batches b.rnd fun k => { k with hashed := true }
      blocks := updBlock s.led.blocks b.id fun k => { k with
        idig := some (sha384 r.1), flags := k.flags ||| (if r.2.1 then 0x40 else 0) } }
def execIdigComplete (s : State) : Host.Outcome State Fault Refusal := .next (if s.grave then s else idigComplete s)

/-- R568: seal bytes 0x00 to 0xBF. Log entry 72, DEDUCED. -/
def sealHead (l : Led) (b : LBlock) : List Byte :=
  leBytes 2 2 ++ leBytes 2 b.flags ++ leBytes 4 b.nrec ++ leBytes 8 b.rnd ++ leBytes 8 (b.first.getD 0) ++
  leBytes 8 b.dtime ++ leBytes 8 b.evFirst ++ leBytes 4 b.evCount ++ leBytes 4 0 ++ fitBytes 48 l.mdig ++
  fitBytes 48 (b.idig.getD []) ++ fitBytes 48 l.prev

/-! ## Signed heads (R571) -/

/-- The head statement. -/
def headStatement (l : Led) : List Byte :=
  leBytes 4 0x4A584C48 ++ leBytes 2 1 ++ leBytes 2 0 ++ leBytes 8 (l.heads + 1) ++ leBytes 8 l.sealRnd ++
  leBytes 8 l.sealNext ++ leBytes 8 l.sealTime ++ serialChars ++ leBytes 4 0 ++ fitBytes 48 l.chain ++
  List.replicate 24 0

/-- A signing instant: skipped while a signing is in progress or the signature ring is full. Log entry 72, DEDUCED. -/
def signHead (s : State) : State :=
  let l := s.led
  if l.signing.isSome || l.sigProd - sigCons s ≥ l.cfg.sigEnt then s.bump R.LEDSIGSKIP
  else s.setLed { l with heads := l.heads + 1, signing := some (headStatement l) }

/-- The next multiple of SIGPER comes. Log entry 73, DESIGN CHOICE. -/
def execHeadSigning (s : State) : Host.Outcome State Fault Refusal :=
  .next (if !s.led.live || s.grave then s
    else
      let s := advanceTo s (s.led.loadAt + s.led.nextSig * s.led.cfg.sigPer * 10000000)
      signHead (s.setLed { s.led with nextSig := s.led.nextSig + 1 }))
def execLedctlSignow (req : Req) (s : State) : Host.Outcome State Fault Refusal :=
  strobe s req R.LEDCTL signHead

/-- R571: the head statement is signed with the two device keys, and the signed entry is written.
Log entry 73, DESIGN CHOICE. -/
def execSignedEntryWrite (s : State) : Host.Outcome State Fault Refusal :=
  .next (match s.led.signing with
    | none => s
    | some stmt =>
      if s.grave then s
      else
        let a := deviceSign 0 stmt s
        let b := deviceSign 2 stmt a.2
        let l := b.2.led
        let s := b.2.setLed { l with signing := none, sigProd := l.sigProd + 1 }
        let s := unitWrite s (l.cfg.sigBase + l.sigProd % l.cfg.sigEnt * 18432) (stmt ++ a.1 ++ b.1 ++ List.replicate 832 0) []
        let s := unitWrite s (l.cfg.sigBase + l.cfg.sigEnt * 18432) (leBytes 8 s.led.sigProd) []
        ledMsi (s.bump R.LEDSIGCNT) R.LEDCFG3_IESIG)

/-- R567, R569: the seal at the front of the queue is written. A final block is signed at once (R575).
Log entry 73, DESIGN CHOICE. -/
def sealWrite (s : State) : State :=
  match s.led.queue with
  | .seal blk :: _ =>
    match s.led.blocks.find? (·.id == blk) with
    | none => ledPop s
    | some b =>
      if b.idig.isNone || s.stopped then s
      else ifRoom s fun s =>
        let hd := sealHead s.led b
        let chain := sha384 (b.bytes ++ hd)
        let s := putOutProd (putEntry (ledPop s) (hd ++ chain ++ List.replicate 16 0))
        let s := s.setLed { s.led with
          prev := chain, chain := chain, sealRnd := b.rnd, sealNext := b.first.getD 0 + b.nrec, sealTime := b.dtime
          blocks := s.led.blocks.filter (·.id != blk) }
        let s := ledMsi s R.LEDCFG3_IEBLK
        if bitOf b.flags 5 then signHead s else s
  | _ => s
def execSealWrite (s : State) : Host.Outcome State Fault Refusal := ifAlive s (sealWrite s)

/-! ## Controls, load and unload -/

/-- R560: cuts resume after a forced close. Log entry 72, DEDUCED. -/
def execLedctlResume (req : Req) (s : State) : Host.Outcome State Fault Refusal :=
  strobe s req R.LEDCTL fun s =>
    if s.led.suspended then
      let s := zeroBank (zeroBank s 0) 1
      s.setLed { s.led with suspended := false }
    else s
def execLedctlEnable (req : Req) (on : Bool) (s : State) : Host.Outcome State Fault Refusal :=
  enable s req R.LEDCTL_ENABLE on
def execLedctlClrcnt (req : Req) (s : State) : Host.Outcome State Fault Refusal :=
  strobe s req R.LEDCTL fun s =>
    s.clear [R.LEDREC, R.LEDLATE, R.LEDSPILL, R.LEDDEFER, R.LEDFORCE, R.LEDSIGCNT, R.LEDSIGSKIP]

/-- R577: LEDSTAT.OPENB and STATE. -/
def openBatches (s : State) : Nat := (s.led.batches.filter (!·.done)).length
def ledState (s : State) : Nat :=
  if s.led.suspended then 3
  else if s.fbit R.LEDCTL_ENABLE then 1
  else if openBatches s != 0 || !s.led.queue.isEmpty then 2 else 0

/-- R572: the digest of the declared model. -/
def modelDigest (s : State) (recs : List Rec) : List Byte × State :=
  let r := (recs.filter (·.typ == 0x50)).foldl (fun (acc : List Byte × State) r =>
    let a := stackBase r.idx + r.v0 * 0x4000000
    let q := mspRead acc.2 a (r.v1 * 0x4000000)
    (acc.1 ++ cellsGet q.1 a (r.v1 * 0x4000000), q.2)) ([], s)
  (sha384 r.1, r.2)

/-- R574: an accepted load of context D. Log entry 66, DESIGN CHOICE; 72, DEDUCED. -/
def ledgerLoad (s : State) (recs : List Rec) : State :=
  let s := s.wideSet 4 7 0
  let s := s.wideSet 4 0xB 0
  let d := modelDigest s recs
  let s := d.2
  let l := s.led
  let s := s.setLed { live := true, cfg := ledCfg s, start := true, nextLseq := s.wideGet 4 0xD, cutEnd := s.wideGet 4 0xE
                      prev := (upto 6).flatMap fun k => leBytes 8 (s.wideGet 4 (0x20 + k))
                      mdig := d.1, chain := l.chain, sealRnd := l.sealRnd, sealNext := l.sealNext
                      sealTime := l.sealTime, loadAt := s.clk.tenths }
  if s.round.win.isSome then openBlock s else s

/-- R575: the open batches are collected and a final block closed, as context D is unloaded.
Log entry 66, DESIGN CHOICE; 72, DEDUCED. -/
def ledgerUnload (s : State) : State :=
  if !s.led.live then s
  else
    let s := if s.led.blocks.isEmpty || s.round.win.isNone then openBlock s else s
    let s := if openBatches s = 0 then s else collectOpen s
    let s := closeBlock (blockFlag s 0x20) s.now
    s.setLed { s.led with live := false, suspended := false }

/-- R575: the unload's records and seals, as far as the output ring has room. -/
def drainRun : Nat → State → State
  | 0, s => s
  | k + 1, s =>
    match s.led.queue with
    | [] => s
    | .seal _ :: _ => drainRun k (sealWrite s)
    | _ => drainRun k (recordDelivery s)
def hashAll : Nat → State → State
  | 0, s => s
  | k + 1, s => hashAll k (idigComplete s)
def drainLedger (s : State) : State :=
  let s := hashAll s.led.blocks.length s
  drainRun s.led.queue.length s
/-- R575: records, seals or the signing of a head are still to come; a module that has stopped sends none (R788). -/
def ledgerBusy (s : State) : Bool :=
  !s.stopped && !s.grave && (!s.led.queue.isEmpty || s.led.signing.isSome)

end Sys2Proof.Machine
end

