-- ==== Sys2Proof/Machine/Round.lean ====
section
/-! DEFINITION. Sys2Proof/Machine/Round.lean: the Round (R42 to R101): windows and switches, boundaries from the internal
generator or from ROUND_IN, starting and stopping. -/

namespace Sys2Proof.Machine

/-! ## Windows (R60) -/

def execWindowBoundary (s : State) : Host.Outcome State Fault Refusal :=
  .next (if s.clk.present && !s.grave then windowBoundary s else s)

/-- R62, R64, R75: the incoming context begins to issue on a core. -/
def execSwitchComplete (core : CoreId) (s : State) : Host.Outcome State Fault Refusal :=
  .next (
    let k := s.core core
    match k.switch with
    | none => s
    | some (x, t0) =>
      if s.grave || k.infl.any (·.2.ctx == other x) then s
      else switchOver (s.setCore core { k with switch := none }) x t0)

/-! ## Flow counters (R76 to R81) -/

/-- Residues of a die found at one boundary: how many, the lowest counter, its residue. -/
def driftAdd (old : Nat × Nat × W32) (l : List (Nat × W32)) : Nat × Nat × W32 :=
  l.foldl (fun d e => if d.1 = 0 || e.1 < d.2.1 then (d.1 + 1, e.1, e.2) else (d.1 + 1, d.2.1, d.2.2)) old

/-- R76 to R78: re-alignment of a context's flow counters on a die. -/
def realignDie (s : State) (x : Ctx) (die : Nat) : State :=
  let r := realignList s (flowCtrs s x die)
  { r.1 with round := { r.1.round with
      drift := tput (0, 0, 0) r.1.round.drift die (driftAdd (tget (0, 0, 0) r.1.round.drift die) r.2) } }

/-- R79, R80: the drift check of a die is complete. -/
def driftCheck (s : State) (die : Nat) : State :=
  let d := tget (0, 0, 0) s.round.drift die
  let s := { s with round := { s.round with drift := tdel s.round.drift die } }
  let pr := s.probe 0x06 die [0] 0
  if d.1 = 0 then (if pr.1.isSome then (pr.2.fset R.RNDSTAT_DRIFT 1).reportFrom .notice 0x06 die 0 .none 6 0 (s.endpoint 0) true else s)
  else
    let s := pr.2
    let s := ((s.fset (R.DRIFTSTAT_NRES die) (min 255 d.1)).fset (R.DRIFTSTAT_FIRSTID die) d.2.1).wr (R.DRIFTRES die) d.2.2
    let s := { s with round := { s.round with driftRnd := tput 0 s.round.driftRnd die s.round.num } }
    (s.fset R.RNDSTAT_DRIFT 1).reportFrom .notice 0x06 die 0 (optParty (s.ctr (die * 4096 + d.2.1)).owner) 6 0 (s.endpoint 0) pr.1.isSome

/-- R77: context T work that was in flight at the latest boundary is still in flight on a die. -/
def dieBusyT (s : State) (die : Nat) : Bool :=
  s.cores.any fun e => dieOf e.1 == die && e.2.infl.any fun i => i.2.ctx == .t && decide (i.2.iss < e.2.boundIss)
/-- R77: what is in flight now is in flight at the boundary. -/
def markIssued (s : State) : State :=
  { s with cores := s.cores.foldl (fun (t : Tab CoreS) (e : Nat × CoreS) => tput {} t e.1 { e.2 with boundIss := e.2.nextIss }) s.cores }

/-- Action 6 of R82: re-alignment on one die, with context T's put off while its work is in flight there. -/
def realignBoundary (s : State) (die : Nat) : State :=
  let s := realignDie s .d die
  if firstWin s = 0 && dieBusyT s die then
    { s with round := { s.round with realignPend := s.round.realignPend ||| 2 ^ die } }
  else
    let s := if bitOf s.round.realignPend die then
        { s with round := { s.round with realignPend := s.round.realignPend - 2 ^ die } }
      else s
    driftCheck (realignDie s .t die) die

def execFlowRealignT (die : DieId) (s : State) : Host.Outcome State Fault Refusal :=
  .next (if s.grave || !bitOf s.round.realignPend die || dieBusyT s die then s
    else
      let s := { s with round := { s.round with realignPend := s.round.realignPend - 2 ^ die.val } }
      driftCheck (realignDie s .t die) die)

/-! ## Staged settings (R51, R94, R95, R714 to R717) -/

/-- The value a register would hold with its staged fields in force. Log entry 13, DEDUCED. -/
def stagedWord (s : State) (off : Nat) : W32 :=
  let e := tget ((0 : W32), (0 : W32)) s.shadow off
  (s.rd off &&& ~~~e.2) ||| (e.1 &&& e.2)

/-- R51: the Round domain is applied or refused. -/
def applyRound (s : State) : State :=
  let per := (stagedWord s R.RNDPER).toNat % 2 ^ 14
  let win := stagedWord s R.RNDWIN
  let dlen := win.toNat % 2 ^ 13
  let tw := bitsOf win.toNat 13 2
  let fits (x : Ctx) : Bool := match s.job x with
    | none => true
    | some j => (budgetFail per dlen tw x j.recs).isNone
  let s' := { s with shadow := tdel (tdel s.shadow R.RNDPER) R.RNDWIN }
  if (tget ((0 : W32), (0 : W32)) s.shadow R.RNDPER).2 = 0 && (tget ((0 : W32), (0 : W32)) s.shadow R.RNDWIN).2 = 0 then s
  else
    s'.gate 1 (!(decide (2 * dlen ≤ per) && fits .d && fits .t))
      (fun inj t => ((t.fset R.RNDSTAT_CFGREF 1).forr R.UPDREF_REF 1).refusal 1 inj) fun t =>
      (t.wr R.RNDPER (stagedWord s R.RNDPER)).wr R.RNDWIN win

/-- R95: OUTMODE and RNDSYNC come into force. -/
def applySync (s : State) : State :=
  { s with round := { s.round with outmode := s.fget R.RNDCTL_OUTMODE, sync := s.rd R.RNDSYNC } }
def outLead (s : State) : Nat := bitsOf s.round.sync.toNat 16 10
def missLim (s : State) : Nat := bitsOf s.round.sync.toNat 12 4
/-- R84: GUARD in ns. -/
def guardNs (s : State) : Nat := max 13 (bitsOf s.round.sync.toNat 0 12)

/-! ## Boundaries (R82) -/

def rndState (s : State) : Nat := s.fget R.RNDSTAT_STATE
/-- R612: action 3. -/
def epochStep (s : State) : State :=
  if s.fbit R.RTSTAT_ARMED && rtgornd s == s.round.num.toNat then
    let s := ((s.fset R.RTSTAT_CUR (1 - curTbl s)).fset R.RTSTAT_ARMED 0).fset R.RTSTAT_OVERLAP 1
    let s := { s with advancedAt := s.round.num, remotes := s.remotes.map fun q => { q with old := true } }
    if oldPending s then { s with epochHold := true } else releaseHeld s
  else releaseHeld (s.fset R.RTSTAT_OVERLAP 0)

/-- R265: harts start at the first boundary after their context is loaded. -/
def startHarts (s : State) (x : Ctx) : State :=
  match s.job x with
  | none => s
  | some j =>
    if j.started then s
    else
      (namedCores j).foldl (fun s c =>
        let h := s.cc c x
        if h.hst == .waiting then s.setCc c x { h with hst := .running } else s) (s.setJob x (some { j with started := true }))

/-- The marks of the ended Round are cleared. -/
def clearMarks (s : State) : State :=
  { s with cores := s.cores.foldl (fun t e =>
      tput {} t e.1 { e.2 with d := { e.2.d with marks := 0 }, t := { e.2.t with marks := 0 } }) s.cores }

/-- Action 1: the number, the stamp, and at the first boundary device time (R47, R92). -/
def stampRound (s : State) (first : Bool) : State :=
  let s := if first then
      { s with
        clk := { s.clk with base := (s.round.dtStart.toNat * 10 : Nat) - (s.clk.tenths : Int) }
        round := { s.round with num := s.round.rndStart } }
    else { s with round := { s.round with num := s.round.num + 1 } }
  let past := if first then [] else (s.round.stampTenths :: s.round.past).take 32767
  let r := { s.round with stamp := s.now, stampTenths := s.clk.tenths, past := past, firstAt := none, pulsed := false }
  { s with round := { r with edgeDone := s.round.edgeNext, edgeNext := false } }

/-- The windows of the ending Round that have not been closed are closed, in order. Log entry 68, DEDUCED. -/
def closeWindows : Nat → State → State
  | 0, s => s
  | k + 1, s => closeWindows k (windowBoundary s)

/-- R734: a context is loaded and Rounds run after Siding. -/
def border (s : State) : Bool := s.stage == 3 && s.anyJob && rndState s == 2
/-- R734: BORDERSEEN is set the first time STAGE reads Border. -/
def noteBorder (s : State) : State := if border s then s.fset R.STAGESTAT_BORDERSEEN 1 else s

/-- A Round boundary at the present instant, in the order of R82. `first` tells the first boundary after Rounds start. -/
def openRound (s : State) (first : Bool) : State :=
  let old := s.round.win
  let s := stampRound s first
  let s := applySync (applyRound (s.fset R.UPDSTAT_ARMED 0))
  let s := epochStep s
  let s := ledgerBoundary s old.isSome
  let s := match old with | none => s | some w => checkMarks s w
  let s := startHarts (startHarts (clearMarks s) .d) .t
  let s := openWin s old (firstWin s)
  let s := [0, 1, 2, 3].foldl realignBoundary (markIssued s)
  let s := (upto 24).foldl failoverStep s
  if first then noteBorder (s.fset R.RNDSTAT_STATE 2) else s

/-- R94: Rounds stop at this boundary: actions 2 to 5 of R82 for the Round that ends, without a new number, stamp or
window. Log entry 68, DEDUCED; 83, DEDUCED. -/
def stopRounds (s : State) : State :=
  let s := applySync (applyRound (s.fset R.UPDSTAT_ARMED 0))
  let s := releaseHeld (s.fset R.RTSTAT_OVERLAP 0)
  let s := if s.led.live && !s.stopped then closeBlock s s.now else s
  let s := match s.round.win with | none => s | some w => checkMarks s w
  let s := (upto 24).foldl failoverStep (switchesOver s)
  let s := { s with cores := s.cores.foldl (fun (t : Tab CoreS) (e : Nat × CoreS) => tput {} t e.1 { e.2 with switch := none }) s.cores }
  let s := clearMarks { s with round := { s.round with win := none, stopping := false, missRun := 0, goodRun := 0 } }
  s.fset R.RNDSTAT_STATE 0

/-- Log entry 3, DESIGN CHOICE. -/
def boundaryNow (s : State) : State := if s.round.stopping then stopRounds s else openRound s false

/-- The end of the present Round by PERIOD, in tenths of ns. Log entry 68, DEDUCED. -/
def nextBoundary (s : State) : Nat := s.round.stampTenths + period s * 10000
/-- Time goes forward to the instant of a boundary, closing the windows on the way. -/
def reachBoundary (s : State) (t : Nat) : State := pullTo (closeWindows 4 s) t

/-! ## ROUND_IN (R83 to R88) -/

/-- R85, R86: the report of a stray or a missed edge (R807). -/
def edgeReport (s : State) (cause : Nat) : State :=
  let r := s.check 0x04 0 [cause] 0 (fun _ => true) (some cause)
  r.2.2.reportFrom .notice 0x04 0 cause .roundIn 0 0 (s.endpoint 0) r.2.1
/-- Log entry 69, DEDUCED. -/
def stray (s : State) : State := edgeReport ((s.bump R.STRAYCNT).fset R.RNDSTAT_STRAY 1) 1
/-- Log entry 69, DEDUCED. -/
def repeatEdge (s : State) : State := if s.round.outmode = 2 then s.emit (.roundOut s.now) else s

/-- R86, R87: the device makes a boundary for a missed edge. Log entry 69, DEDUCED. -/
def missed (s : State) : State :=
  let s := edgeReport ((s.bump R.MISSCNT).fset R.RNDSTAT_MISS 1) 2
  let n := s.round.missRun + 1
  let s := { s with round := { s.round with missRun := n, goodRun := 0, edgeDone := true, edgeNext := true } }
  if missLim s != 0 && missLim s ≤ n && rndState s == 2 then
    let pr := s.probe 0x05 0 [0] 0
    (pr.2.fset R.RNDSTAT_STATE 3).reportFrom .contained 0x05 0 0 .roundIn 0 0 (s.endpoint 0) pr.1.isSome
  else s

/-- R87: HOLDOVER: the window of the latest boundary closes without an edge. -/
def holdoverMiss (s : State) : State :=
  let s := advanceTo s (s.round.stampTenths + guardNs s * 10)
  let s := edgeReport ((s.bump R.MISSCNT).fset R.RNDSTAT_MISS 1) 2
  { s with round := { s.round with missRun := s.round.missRun + 1, goodRun := 0, edgeDone := true } }

/-- R86: while Rounds follow ROUND_IN, the device makes the boundary of an expected edge that did not come. -/
def missBoundary (s : State) : State :=
  boundaryNow (missed (reachBoundary s (nextBoundary s + guardNs s * 10)))

/-- R44, R87: a boundary of the internal generator, the first after a start apart. In HOLDOVER, the window of the latest
boundary has closed before it, without an edge where none has come (R88). -/
def ownBoundary (s : State) : State :=
  let s := if s.fbit R.RNDCTL_SRC && !s.round.edgeDone then holdoverMiss s else s
  boundaryNow (reachBoundary s (nextBoundary s))

/-- R44, R87, R91: a boundary of the internal generator. -/
def execRoundBoundary (s : State) : Host.Outcome State Fault Refusal :=
  .next (if !s.clk.present || s.grave then s
    else
      match s.round.firstAt with
      | some t => openRound (pullTo s t) true
      | none =>
        if s.round.win.isNone then s
        else if s.fbit R.RNDCTL_SRC && rndState s != 3 then s
        else ownBoundary s)

/-- R44, R86, R87: one boundary or missed window that lies wholly before an edge at instant t. -/
def passOne (t : Nat) (s : State) : State :=
  let e := nextBoundary s
  let g := guardNs s * 10
  if !s.fbit R.RNDCTL_SRC then
    match s.round.firstAt with
    | some f => if f < t then openRound (pullTo s f) true else s
    | none => if s.round.win.isSome && decide (e < t) then ownBoundary s else s
  else if rndState s = 2 then (if e + g < t then missBoundary s else s)
  else if rndState s = 3 then
    if !s.round.edgeDone && decide (s.round.stampTenths + g < t) then holdoverMiss s
    else if e < t then ownBoundary s
    else s
  else s
/-- What happens before an edge at instant t, with no other edge; `fuel` bounds the Rounds. -/
def passRounds (t : Nat) : Nat → State → State
  | 0, s => s
  | k + 1, s => passRounds t k (passOne t s)

/-- R88: in HOLDOVER, an edge inside an acceptance window that had none; `next` tells the window of the coming boundary.
The fourth in a row returns the device to RUNNING, where an edge makes the boundary it was expected for.
Log entry 69, DEDUCED. -/
def goodEdge (s : State) (next : Bool) : State :=
  let s := { s with round := { s.round with
    missRun := 0, goodRun := s.round.goodRun + 1,
    edgeDone := if next then s.round.edgeDone else true, edgeNext := if next then true else s.round.edgeNext } }
  if s.round.goodRun < 4 then s
  else
    let s := noteBorder (({ s with round := { s.round with goodRun := 0 } }).fset R.RNDSTAT_STATE 2)
    if next then boundaryNow (closeWindows 4 s) else s

/-- R85: a stray edge; in HOLDOVER it breaks the run of good edges. -/
def strayEdge (s : State) : State := stray { s with round := { s.round with goodRun := 0 } }

/-- R84, R85, R87, R88: an edge at the present instant, with every earlier boundary and missed window past. In HOLDOVER the
boundary is the device's own (R87) and an edge is only judged against the acceptance windows. -/
def judgeEdge (s : State) : State :=
  let t := s.clk.tenths
  let e := nextBoundary s
  let g := guardNs s * 10
  if (s.armedSlot 0x04 0 [1] 0).isSome then strayEdge s
  else if rndState s = 3 then
    if decide (t ≤ s.round.stampTenths + g) && !s.round.edgeDone then goodEdge s false
    else if decide (e ≤ t + g) && !s.round.edgeNext then goodEdge s true
    else strayEdge s
  else if t + g < e then strayEdge s
  else boundaryNow (closeWindows 4 { s with round := { s.round with missRun := 0 } })

/-- R83 to R88, R91: an edge arrives dt tenths of a nanosecond from now, at the first count of device time there or after
it. Log entry 69, DEDUCED. -/
def execRoundInEdge (dt : Nat) (s : State) : Host.Outcome State Fault Refusal :=
  .next (if s.grave then s
    else if !s.clk.present then repeatEdge s
    else
      let t := onGrid (s.clk.tenths + dt)
      if s.fbit R.RNDCTL_SRC && rndState s = 1 then openRound (repeatEdge (pullTo s t)) true
      else
        let s := repeatEdge (advanceTo (passRounds t (3 * (dt / 1000000 + 2)) s) t)
        if !s.fbit R.RNDCTL_SRC || rndState s < 2 then s else judgeEdge s)

/-- R86: no edge by E + GUARD. In HOLDOVER the boundary has come at E itself (R87). Log entry 69, DEDUCED. -/
def execMissedEdge (s : State) : Host.Outcome State Fault Refusal :=
  .next (if !s.clk.present || s.grave || !s.fbit R.RNDCTL_SRC || rndState s < 2 then s
    else if rndState s = 3 then
      if s.round.edgeDone && (s.armedSlot 0x04 0 [2] 0).isNone then s else holdoverMiss s
    else missBoundary s)

/-- R89: the pulse that leads the next boundary. Log entry 68, DEDUCED; 83, DEDUCED. -/
def execRoundOutPulse (s : State) : Host.Outcome State Fault Refusal :=
  .next (
    let next := match s.round.firstAt with
      | some t => some t
      | none => if s.round.win.isSome && !s.round.stopping then some (nextBoundary s) else none
    match next with
    | none => s
    | some t =>
      if !s.clk.present || s.grave || s.round.outmode != 1 || s.round.pulsed || t < s.clk.tenths then s
      else
        let s := advanceTo s (t - outLead s * 10)
        { s.emit (.roundOut s.now) with round := { s.round with pulsed := true } })

/-! ## Starting, stopping, clearing (R91 to R94, R96) -/

/-- R91: the instant of the first boundary. -/
def firstInstant (s : State) : Nat :=
  let d := s.devTenths
  let target := if s.fget R.RNDCTL_OUTMODE = 1 then cdiv (d + s.fget R.RNDSYNC_OUTLEAD * 10) 10000 * 10000
    else (d / 10000 + 1) * 10000
  s.clk.tenths + (target - d)

/-- Log entry 68, DEDUCED. -/
def execRoundsStart (req : Req) (s : State) : Host.Outcome State Fault Refusal :=
  strobe s req R.RNDCTL fun s =>
    if s.fbit R.RNDCTL_RUN then s
    else
      let s := s.fset R.RNDCTL_RUN 1
      if rndState s != 0 then { s with round := { s.round with stopping := false } }
      else if s.fbit R.RNDCTL_SRC then s.fset R.RNDSTAT_STATE 1
      else { s with round := { s.round with firstAt := some (firstInstant s), pulsed := false } }

/-- Log entry 68, DEDUCED. -/
def execRoundsStop (req : Req) (s : State) : Host.Outcome State Fault Refusal :=
  strobe s req R.RNDCTL fun s =>
    s.gate 1 s.anyJob (fun inj s => busyRefused s R.RNDSTAT_BUSYREF inj) fun s =>
      let s := s.fset R.RNDCTL_RUN 0
      if s.round.win.isSome then { s with round := { s.round with stopping := true } }
      else ({ s with round := { s.round with firstAt := none } }).fset R.RNDSTAT_STATE 0

def execRndctlClrcnt (req : Req) (s : State) : Host.Outcome State Fault Refusal :=
  strobe s req R.RNDCTL fun s => s.clear [R.DOVCNT, R.TOVCNT, R.SWLCNT, R.MISSCNT, R.STRAYCNT, R.WDOGCNT]
/-- R73, R99. -/
def execDovrRelease (req : Req) (s : State) : Host.Outcome State Fault Refusal :=
  strobe s req R.RNDSTAT fun s => (s.fset R.RNDSTAT_DOVR 0).fset R.RNDSTAT_DHELD 0

end Sys2Proof.Machine
end

