-- ==== Sys2Proof/Machine/Withy.lean ====
section
/-! DEFINITION. Sys2Proof/Machine/Withy.lean: withy stores and messages: their departure from a core, the stop of a cluster,
and their deliveries (R292, R350, R361, R487 to R490). -/

namespace Sys2Proof.Machine

/-! ## Withy departures (R350, R361, R487) -/

/-- Consecutive parts of at most k elements, with the offset of each. -/
def partsOf {α : Type} (k : Nat) : Nat → List α → List (Nat × List α)
  | 0, _ => []
  | f + 1, l => if l.isEmpty then [] else
      let n := l.length
      (0, l.take k) :: (partsOf k f (l.drop k)).map fun p => (p.1 + min k n, p.2)

/-- One flit of a store to another module: `p` is the offset and the bytes it carries. -/
def storeFlit (s : State) (c : Nat) (x : Ctx) (ep a : Nat) (bad : List Nat) (who : ReqWho) (p : Nat × List Byte) : State :=
  let hit := bad.any fun k => decide (p.1 ≤ k) && decide (k < p.1 + p.2.length)
  let f : Flit := ⟨mkHdr 1 1 0 hit ep (specMem (s.endpoint (0x80 + c)) (a + p.1) p.2.length), padded p.2, none⟩
  (request s (iodOfDie (dieOf c)) (some x) f who p.2.length).2
/-- A store of up to 256 bytes leaves for another module as WRITE flits of at most 240 bytes; its refusal counts once
(R507). -/
def storeAway (s : State) (c : Nat) (x : Ctx) (ep a : Nat) (bs : List Byte) (bad : List Nat) : State :=
  match partsOf 240 2 bs with
  | [p, q] =>
    let id := s.nextReq
    let t := storeFlit s c x ep a bad (.withyPart c x (id + 1)) p
    storeFlit t c x ep a bad (if s.withyErrs.length < t.withyErrs.length then .counted else .withyPart c x id) q
  | l => l.foldl (storeFlit · c x ep a bad (.withy c x) ·) s

/-- A message of up to 32 words leaves for another module as MSG flits of at most 30 words, joined by MORE (R595). -/
def messageAway (s : State) (c : Nat) (x : Ctx) (ep q : Nat) (ws : List (Nat × Bool)) : State :=
  (partsOf 30 2 ws).foldl (fun s p =>
    let n := p.2.length
    let mask := (upto n).foldl (fun m k => if (p.2.getD k (0, false)).2 then m + 2 ^ k else m) 0
    let f : Flit := ⟨mkHdr 4 1 0 (mask != 0) ep
        (specMsg (s.endpoint (0x80 + c)) q n (decide (p.1 + n < ws.length)) mask),
      padded (p.2.flatMap fun w => leBytes 8 w.1), none⟩
    (request s (iodOfDie (dieOf c)) (some x) f (.message c x) (8 * n)).2) s

/-! ## The stop of a cluster (R292, R489) -/

/-- The endpoint of another module that a delivery goes to. -/
def WithyBody.away : WithyBody → Option Nat
  | .storeAway ep _ _ _ => some ep
  | .msgAway ep _ _ => some ep
  | _ => none
/-- R489: an earlier delivery of the same source must take effect first. A message waits for every earlier store of its
source, and for earlier messages to the same core; what goes to one endpoint of another module goes in order. -/
def withyBlocks (a b : WithyItem) : Bool :=
  a.src == b.src &&
  match a.body, b.body with
  | .store _ _ _, .store _ _ _ => true
  | .store _ _ _, .msg _ _ _ => true
  | .msg c _ _, .msg d _ _ => c == d
  | a, b => a.away.isSome && a.away == b.away

/-- The first item that satisfies `p` and that no earlier item blocks, and the list without it.
Log entry 37, DESIGN CHOICE. -/
def takeWithy (p : WithyItem → Bool) : List WithyItem → List WithyItem → Option (WithyItem × List WithyItem)
  | _, [] => none
  | before, i :: r =>
    if p i && !(before.any fun b => withyBlocks b i) then some (i, before ++ r) else takeWithy p (before ++ [i]) r

def withyIsStore (i : WithyItem) : Bool := match i.body with | .store _ _ _ => true | _ => false
def withyIsMsg (i : WithyItem) : Bool := match i.body with | .msg _ _ _ => true | _ => false

/-- R292: what the stop of a cluster grants next in the unscheduled virtual channel, stores and messages alike: its four cores
in turn, and of the core granted the oldest item that may pass. Log entry 37, DESIGN CHOICE. -/
def stopGrant (s : State) (cl : Nat) : Option (WithyItem × List WithyItem) :=
  ((upto 4).map fun k => 4 * cl + (tget 0 s.stopTurn (cl * 4 + 1) + k) % 4).findSome? fun c =>
    takeWithy (fun j => j.src.1 == c) [] s.withy
/-- The stop has granted item j: `rest` still waits, and the turn is the next core's. Log entry 37, DESIGN CHOICE. -/
def stopPast (s : State) (cl : Nat) (j : WithyItem) (rest : List WithyItem) : State :=
  { s with withy := rest, stopTurn := tput 0 s.stopTurn (cl * 4 + 1) ((j.src.1 + 1) % 4) }
/-- R292, R487: the delivery that is granted next, of the kind that `p` tells: of the clusters, that of the oldest item first,
the first one whose stop grants such an item. Log entry 37, DESIGN CHOICE. -/
def grantWithy (s : State) (p : WithyItem → Bool) : Option (WithyItem × State) :=
  (s.withy.map fun i => clusterOf i.src.1).findSome? fun cl =>
    match stopGrant s cl with
    | some (j, rest) =>
      if p j then some (j, stopPast s cl j rest) else none
    | none => none

/-- An item for another module leaves its stop. -/
def leaveStop (s : State) (j : WithyItem) : State :=
  match j.body with
  | .storeAway e a bs bad => storeAway s j.src.1 j.src.2 e a bs bad
  | .msgAway e q ws => messageAway s j.src.1 j.src.2 e q ws
  | _ => s
/-- R292: the stop grants items for other modules at once while the turn is theirs; `fuel` bounds their number.
Log entry 37, DESIGN CHOICE. -/
def stopFlow (cl : Nat) : Nat → State → State
  | 0, s => s
  | fuel + 1, s =>
    match stopGrant s cl with
    | none => s
    | some (j, rest) => if j.body.away.isNone then s else stopFlow cl fuel (leaveStop (stopPast s cl j rest) j)
def stopOn (s : State) (c : Nat) : State := stopFlow (clusterOf c) s.withy.length s

/-- Log entry 37, DESIGN CHOICE. -/
def withyAdd (s : State) (c : Nat) (x : Ctx) (b : WithyBody) : State := { s with withy := s.withy ++ [⟨(c, x), b⟩] }
def withyRefused (s : State) (c : Nat) (x : Ctx) : State := { s with withyErrs := s.withyErrs ++ [(c, x)] }

/-- A withy store leaves its core. Log entry 37, DESIGN CHOICE. -/
def sendStore (s : State) (c : Nat) (x : Ctx) (ep : Option Nat) (a : Nat) (bs : List Byte) (bad : List Nat) : State :=
  match ep with
  | none => withyAdd s c x (.store a bs bad)
  | some e =>
    if !ownBlock s e then stopOn (withyAdd s c x (.storeAway e a bs bad)) c
    else if e % 256 = 0 then withyAdd s c x (.store a bs bad)
    else withyRefused s c x
/-- A message leaves its core. -/
def sendMessage (s : State) (c : Nat) (x : Ctx) (ep q : Nat) (ws : List (Nat × Bool)) : State :=
  if !ownBlock s ep then stopOn (withyAdd s c x (.msgAway ep q ws)) c
  else
    match ownCore s ep with
    | some d => withyAdd s c x (.msg d q ws)
    | none => withyRefused s c x

/-! ## Withy deliveries inside the module (R489, R490) -/

def execWithyMessageDelivery (s : State) : Host.Outcome State Fault Refusal :=
  ifAlive s (match grantWithy s withyIsMsg with
    | none => s
    | some (i, t) =>
      match i.body with
      | .msg c q ws => stopOn (deliver t c q ws (s.endpoint (0x80 + i.src.1))) i.src.1
      | _ => s)

/-- R489, R490: a store takes effect as one write, or is refused and its error returns. Log entry 37, DESIGN CHOICE. -/
def storeDelivery (s : State) (src : Nat × Ctx) (a : Nat) (bs : List Byte) (bad : List Nat) : State :=
  let as := (upto bs.length).map (· + a)
  let out := !granted s src.2 a bs.length || !granted s src.2 (a + bs.length - 1) 1
  let r := s.check 0x22 src.1 [2] a (fun _ => false) (if out then some 2 else none)
  let s := r.2.2
  if r.1.isSome then
    let s := partitionFault s src.1 src.2 2 a (s.endpoint (0x80 + src.1)) r.2.1
    { s with withyErrs := s.withyErrs ++ [src] }
  else if !serves s a || (s.armedSlot 0x31 src.1 [ctxNum src.2] 0).isSome then { s with withyErrs := s.withyErrs ++ [src] }
  else devWrite (devTouch s none 0 as (s.endpoint (0x80 + src.1))) (cellsAt a bs) (badWords a bad)
def execWithyStoreDelivery (s : State) : Host.Outcome State Fault Refusal :=
  ifAlive s (match grantWithy s withyIsStore with
    | none => s
    | some (i, t) =>
      match i.body with
      | .store a bs bad => stopOn (storeDelivery t i.src a bs bad) i.src.1
      | _ => s)

/-- R490: a refusal is counted and raises a fault at its source. Log entry 37, DESIGN CHOICE. -/
def withyError (s : State) (c : Nat) (x : Ctx) : State :=
  let pr := s.probe 0x31 c [ctxNum x] 0
  (pr.2.bump (match x with | .d => R.WYERRD c | .t => R.WYERRT c)).reportFrom .contained 0x31 c (ctxNum x) (ctxParty x) 2 0
    (s.endpoint (0x80 + c)) pr.1.isSome
def execWithyErrorReturn (s : State) : Host.Outcome State Fault Refusal :=
  ifAlive s (match s.withyErrs with
    | [] => s
    | e :: r => withyError { s with withyErrs := r } e.1 e.2)

end Sys2Proof.Machine
end

