-- ==== Sys2Proof/Machine/Retire.lean ====
section
/-! DEFINITION. Sys2Proof/Machine/Retire.lean: the retirement of command instructions (R311, R361), instructions over time
(R69, R195, R247, R859), and wait timeouts (R450 to R452, R465). -/

namespace Sys2Proof.Machine

/-! ## Effects -/

/-- R58, R59, R358: a window-end mark retires. -/
def retireMark (s : State) (c : Nat) (x : Ctx) (win tag : Nat) : State :=
  if tag = s.rtag && s.round.win == some win then
    let h := s.cc c x
    s.setCc c x { h with marks := h.marks ||| 2 ^ win }
  else
    let early := tagFollows tag s.rtag ||
      (tag == s.rtag && match s.round.win with | some w => decide (w < win) | none => false)
    let pr := s.probe 0x09 c [0] 0
    if early || pr.1.isSome then
      (pr.2.bump (match x with | .d => R.WENDXD c | .t => R.WENDXT c)).reportFrom .notice 0x09 c 0 (ctxParty x) 4 0
        (s.endpoint (0x80 + c)) pr.1.isSome
    else s

/-- R222: a curve table enters its slot. -/
def retireCurve (s : State) (c : Nat) (x : Ctx) (slot : Nat) (bs : List Byte) (ok : Bool) : State :=
  let pr := s.probe 0x0B c [slot] 0
  let s := pr.2
  let ok := ok && pr.1.isNone
  let k := s.core c
  let s := s.setCore c { k with curves := tput [] k.curves slot bs }
  let s := s.wr (R.VUCRVV c) (BitVec.ofNat 32 (setBits (s.rd (R.VUCRVV c)).toNat slot 1 (if ok then 1 else 0)))
  if ok then s
  else (s.bump (R.VUCRVBAD c)).reportFrom .notice 0x0B c slot (ctxParty x) 4 0 (s.endpoint (0x80 + c)) pr.1.isSome

/-- The bytes to write: of one of which only some bits are written, the others stay as memory has them. -/
def mergePart (m : List Host.Cell) (part cells : List Host.Cell) : List Host.Cell :=
  if part.isEmpty then cells
  else
    cells.map fun e =>
      match part.find? (·.1 == e.1) with
      | none => e
      | some p => (e.1, (e.2 &&& p.2) ||| (tget 0 m e.1 &&& ~~~p.2))

/-- One effect of an instruction of context x on core c. -/
def perform (c : Nat) (x : Ctx) (s : State) : Eff → State
  | .mem cells bad part => devWrite s (mergePart s.mem part cells) bad
  | .mat e i v =>
    let k := s.core c
    s.setCore c { k with mats := tput 0 k.mats (e * 65536 + i) v }
  | .matErr e k i acc => matErr c e acc s (k, i)
  | .vreg i v =>
    let k := s.core c
    s.setCore c { k with vregs := tput 0 k.vregs i v }
  | .rng p g => setRng s c x p g
  | .reseed seed => s.setCc c x { s.cc c x with seed := seed, rng := [] }
  | .curve slot bs ok => retireCurve s c x slot bs ok
  | .cadd n a => ctrAdd s n a (s.endpoint (0x80 + c))
  | .cset n v => ctrSet s n v (s.endpoint (0x80 + c))
  | .sbar n p => ctrBar s n c p (s.endpoint (0x80 + c))
  | .wend w t => retireMark s c x w t
  | .wstore ep a bs bad => sendStore s c x ep a bs bad
  | .wmsg ep q ws => sendMessage s c x ep q ws
  | .dmago n a k => if bitOf s.fenceChans n then s else s.setChan n { s.chan n with shadow := some ⟨a, k⟩ }

/-- Log entry 25, DESIGN CHOICE. -/
def performAll (c : Nat) (x : Ctx) (l : List Eff) (s : State) : State := l.foldl (perform c x) s

/-! ## Retirement -/

/-- The instruction leaves its unit. -/
def leaveUnit (s : State) (c q : Nat) : State :=
  let k := s.core c
  s.setCore c { k with infl := tdel k.infl q }

/-- R362: the instruction has element operations. Log entry 26, DESIGN CHOICE. -/
def hasElements (i : InFlight) : Bool :=
  !i.effs.isEmpty && !isReseed i.word && !isCrvld i.word && !isOp 2 42 i.word && decide (classOf i.word ≤ 4) &&
  !isOp 4 2 i.word

/-- R361: what the instruction's retirement waits for. Log entry 26, DESIGN CHOICE. -/
def mayRetire (s : State) (c q : Nat) (i : InFlight) : Bool :=
  if isOp 6 1 i.word || isOp 6 2 i.word then
    (s.core c).infl.all fun e => e.1 == q || e.2.ctx != i.ctx || decide (i.iss < e.2.iss)
  else if isOp 4 2 i.word then (s.chan (chOf i.word)).shadow.isNone && decide (s.clk.tenths - i.t0 ≤ 200000)
  else !hasElements i || decide (s.clk.tenths - i.t0 ≤ 200000)

/-- R309: the signal. -/
def signal (s : State) (c : Nat) (i : InFlight) : State :=
  if senOf i.word then ctrAdd s (sctrOf i.word) (samtOf i.word) (s.endpoint (0x80 + c)) else s
/-- R281: the completion post. -/
def complete (s : State) (c q : Nat) (i : InFlight) : State :=
  if cmplOf i.word then cqPost s c i.ctx (completionWord q s.rtag (tagOf i.word)) else s

/-- R311: an instruction retires: its effects, its signal, its completion post. Log entry 25, DESIGN CHOICE. -/
def retire (s : State) (c q : Nat) (i : InFlight) : State :=
  let s := performAll c i.ctx i.effs.flatten (leaveUnit s c q)
  let s := if i.flags = 0 then s else setFlags s c i.ctx i.flags
  let s := complete (signal s c i) c q i
  if q ≤ 1 then pwrSettle s c q else s

def execInstructionRetire (core : CoreId) (unit : UnitId) (s : State) : Host.Outcome State Fault Refusal :=
  .next (match inflightAt s core unit with
    | none => s
    | some i => if s.grave || !mayRetire s core unit i then s else retire s core unit i)

/-! ## Over time (R69) -/

/-- The bytes and words that effects would have written, as effects that write unspecified values.
Log entry 27, DESIGN CHOICE. -/
def blur : List Eff → State → List Eff × State
  | [], s => ([], s)
  | .mem cells _ part :: r, s =>
    let f := s.freeBytes cells.length
    let t := blur r f.2
    (.mem ((cells.zip f.1).map fun e => (e.1.1, e.2)) [] part :: t.1, t.2)
  | .vreg i _ :: r, s =>
    let f := s.freeWord
    let t := blur r f.2
    (.vreg i f.1 :: t.1, t.2)
  | _ :: r, s => blur r s

/-- The generator states and the reads of damaged words among effects (R167, R247, R859). -/
def drawsAndReads (l : List Eff) : List Eff :=
  l.filter fun e => match e with | .rng _ _ => true | .matErr _ _ _ _ => true | _ => false

/-- What an instruction leaves that was stopped after `n` element operations (for a Weave, finished mats).
Log entry 27, DESIGN CHOICE. -/
def stopEffects (s : State) (c q : Nat) (i : InFlight) (n : Nat) : State :=
  let x := i.ctx
  let done := (i.effs.take n).flatten
  match classOf i.word with
  | 0 =>
    let b := wf i.word 27 6 * 1024
    (upto (wf i.word 23 4 * 1024)).foldl (fun s k =>
      let f := s.freeWord
      perform c x f.2 (.mat q (b + k) f.1)) (performAll c x done s)
  | 1 =>
    let m := n / 32 * 32
    let s := performAll c x ((i.effs.take m).flatten) s
    let s := performAll c x (drawsAndReads ((i.effs.drop m).take (n - m)).flatten) s
    if n = m then s
    else
      let r := blur ((i.effs.drop m).take 32).flatten s
      performAll c x r.1 r.2
  | 2 =>
    let s := performAll c x done s
    let r := blur (i.effs.drop n).flatten s
    performAll c x r.1 r.2
  | 4 => if isOp 4 2 i.word then s else performAll c x done s
  | _ => performAll c x done s

/-- R69: 20 µs after its issue an instruction is stopped, after `finished` element operations.
Log entry 27, DESIGN CHOICE; 70, DEDUCED. -/
def overTime (s : State) (c q : Nat) (i : InFlight) (finished : Nat) : State :=
  let pr := s.probe 0x08 c [0x40] 0
  let s := if pr.1.isSome then pr.2 else advanceTo pr.2 (i.t0 + 200000)
  let s := stopEffects (leaveUnit s c q) c q i finished
  let s := halt (s.bump R.WDOGCNT) c i.ctx 0x40 (1 + q) 0 0xC i.word pr.1.isSome
  if q ≤ 1 then pwrSettle s c q else s

def execInstructionOverTime (core : CoreId) (unit : UnitId) (finished : Nat) (s : State) :
    Host.Outcome State Fault Refusal :=
  .next (match inflightAt s core unit with
    | none => s
    | some i =>
      if s.grave || !s.clk.present || !(hasElements i || (isOp 4 2 i.word && !mayRetire s core unit i)) then s
      else overTime s core unit i finished)

/-! ## Waits -/

/-- R266: WFI ends with an arrival, or after 1 µs. -/
def execWfiWake (core : CoreId) (ctx : Ctx) (s : State) : Host.Outcome State Fault Refusal :=
  .next (match (s.cc core ctx).stall with
    | .wfi t woken =>
      if !s.fbit (R.CPCTL_ENABLE core) || s.stopped || s.fencedSv core then s
      else if woken then hartNext s core ctx
      else if s.clk.present then hartNext (advanceTo s (t + 10000)) core ctx
      else s
    | _ => s)

/-- R465: what a waiter waits for: KIND, OBJ, and for a counter wait THRESH and SEEN. Log entry 70, DEDUCED. -/
def waitKind (s : State) (c : Nat) (x : Ctx) (w : Nat) : Nat × Nat × Nat × Nat :=
  if w = 6 then
    match (s.cc c x).stall with
    | .scwait _ n thr => (3, n, thr.toNat, (s.ctr n).read.toNat)
    | .qpush q _ => (4, q, 0, 0)
    | .xfence m _ => (5, m, 0, 0)
    | .xbar b _ => (6, b, 0, 0)
    | .wfi _ _ => (7, 0, 0, 0)
    | .none => (0, 0, 0, 0)
  else
    match s.queue c x w with
    | [] => (0, 0, 0, 0)
    | e :: _ =>
      if wenOf e.word && !(s.ctr (wctrOf e.word)).met (wthrOf e.word) then
        (1, wctrOf e.word, wthrOf e.word, (s.ctr (wctrOf e.word)).read.toNat)
      else (2, w, 0, 0)

/-- R452: the snapshot of every waiter of the context on the core. Log entry 70, DEDUCED. -/
def waitSnapshot (s : State) (c : Nat) (x : Ctx) : State :=
  let h := s.cc c x
  s.setCc c x { h with snap := h.waits.map fun e =>
    let k := waitKind s c x e.1
    (e.1, (BitVec.ofNat 64 (2 ^ 63 + k.1 * 2 ^ 60 + k.2.1 % 16384 * 2 ^ 46 + s.rtag * 2 ^ 30 + e.2.age / 10 % 2 ^ 30),
           BitVec.ofNat 64 (k.2.2.1 * 2 ^ 32 + k.2.2.2))) }

/-- R449, R285: code, SRC, recorded address and word of a waiter's timeout. -/
def timeoutOf (s : State) (c : Nat) (x : Ctx) (w : Nat) : Nat × Nat × Nat × W128 :=
  if w = 6 then
    match (s.cc c x).stall with
    | .scwait _ n _ => (0x08, 0, n, 0)
    | .qpush q _ => (0x07, 0, 2 ^ q, 0)
    | .xfence m _ => (0x07, 0, m, 0)
    | .xbar b _ => (0x07, 0, b, 0)
    | _ => (0x07, 0, 0, 0)
  else (0x41, 1 + w, 0, match s.queue c x w with | [] => 0 | e :: _ => e.word)

/-- R450: the instant at which the window of the context that owns it ends, at the latest; training windows that follow one
another are one. -/
def ownEnd (s : State) (x : Ctx) : Nat :=
  match x with
  | .d => s.round.stampTenths + winEnd s 0 * 10000
  | .t => nextBoundary s + (if s.fbit R.RNDCTL_SRC && rndState s == 2 then guardNs s * 10 else 0)

/-- R450, R452: the timer of a waiter reaches its limit, unless its context's window ends before.
Log entry 70, DEDUCED. -/
def waitTimeout (s : State) (c : Nat) (x : Ctx) (w : Nat) : State :=
  match (s.cc c x).waits.find? (·.1 == w) with
  | none => s
  | some e =>
    let t := timeoutOf s c x w
    let pr := s.probe 0x29 c [t.1] 0
    let at_ := s.clk.tenths + (e.2.limit - e.2.age)
    if !waitCounts s c x w || (pr.1.isNone && decide (ownEnd s x < at_)) then s
    else
      let s := if pr.1.isSome then pr.2 else advanceTo pr.2 at_
      let s := (waitSnapshot s c x).bump (R.SNTOCNT (dieOf c))
      halt s c x t.1 t.2.1 t.2.2.1 0xC t.2.2.2 pr.1.isSome
/-- Log entry 3, DESIGN CHOICE. -/
def execWaitTimeout (core : CoreId) (ctx : Ctx) (waiter : WaiterId) (s : State) : Host.Outcome State Fault Refusal :=
  .next (if s.grave || !s.clk.present then s else waitTimeout s core ctx waiter)

end Sys2Proof.Machine
end

