-- ==== Sys2Proof/Machine/Load.lean ====
section
/-! DEFINITION. Sys2Proof/Machine/Load.lean: the loader: the manifest (R403), the fit check (R404, R573, R678), load (R405)
and unload (R406). -/

namespace Sys2Proof.Machine

/-! ## The manifest (R403) -/

/-- A manifest as the loader reads it from HBM: its address, header and records, and every byte of it. -/
structure Man where
  ctx : Ctx
  addr : Nat
  hdr : List Byte
  recs : List Rec
  mem : List Host.Cell := []
deriving DecidableEq, Repr

def recAt (m : List Host.Cell) (a : Nat) : Rec × Nat :=
  let b := cellsGet m a 16
  (⟨imgNat b 0 2, imgNat b 4 4, imgNat b 8 4, imgNat b 12 4⟩, imgNat b 2 2)
def Man.nrec (h : Man) : Nat := imgNat h.hdr 8 4
/-- Records in order, with their reserved bytes. -/
def recsAt (m : List Host.Cell) (a n : Nat) : List (Rec × Nat) := (upto n).map fun k => recAt m (a + 64 + 16 * k)

/-- R404, R572, R637, R663: the types of records. -/
def recTypes : List Nat :=
  [0x03, 0x10, 0x11, 0x12, 0x13, 0x14, 0x15, 0x16, 0x18, 0x19, 0x1A, 0x20, 0x21, 0x22, 0x23, 0x24, 0x30, 0x31, 0x32, 0x33,
   0x38, 0x40, 0x41, 0x42, 0x50]

/-- R403, R404 code 0x01: the header, apart from where the manifest lies. -/
def headerOk (hdr : List Byte) (x : Ctx) : Bool :=
  imgNat hdr 0 4 == 0x4A584D46 && imgNat hdr 4 2 == 1 && imgNat hdr 6 1 == ctxNum x && imgNat hdr 7 1 == 0 &&
  decide (imgNat hdr 8 4 ≤ 65536) && imgNat hdr 0x0C 4 == 0 && imgNat hdr 0x1A 0x26 == 0

/-- The counters that the records of type 0x14 declare, in the order of the counter image (R434). -/
def recCtrs (recs : List Rec) : List Nat :=
  (recs.filter (·.typ == 0x14)).flatMap fun r => (upto r.v1).map (r.idx * 4096 + r.v0 + ·)
/-- Instruction and data granules of a type-0x18 record. Log entry 67, PRESUMED. -/
def Rec.imGr (r : Rec) : Nat := r.v0 % 65536
/-- Log entry 67, PRESUMED. -/
def Rec.dmGr (r : Rec) : Nat := r.v0 / 65536
/-- The length of the manifest with its counter image and its images. -/
def manLen (recs : List Rec) : Nat :=
  recs.foldl (fun n r => max n (match r.typ with
    | 0x18 => r.v1 + (r.imGr + r.dmGr) * 4096
    | 0x32 => r.v0 + 64
    | 0x33 => r.v0 + 32
    | _ => 0))
    (64 + 16 * recs.length + 8 * (recs.filter (·.typ == 0x14)).foldl (fun n r => n + r.v1) 0)

/-- Two ranges (first, count) have a member in common. -/
def overlaps (a b : Nat × Nat) : Bool :=
  decide (0 < a.2) && decide (0 < b.2) && decide (a.1 < b.1 + b.2) && decide (b.1 < a.1 + a.2)

/-- The manifest lies within HBM outside both partitions. -/
def placeOk (s : State) (a n : Nat) : Bool :=
  decide (a + n ≤ 0x6000000000) &&
  [Ctx.d, Ctx.t].all fun x => (upto 8).all fun k =>
    let p := hbmPart s k x
    !overlaps (a, n) (stackBase k + p.1, p.2)

/-- The manifest at an address, where code 0x01 passes, and the machine after the loader's reads: the header, the records, and
the images after them. Log entry 65, DESIGN CHOICE. -/
def fetchManifest (s : State) (x : Ctx) (a : Nat) : Option (Man × State) :=
  if 0x6000000000 < a + 64 then none
  else
    let r := mspRead s a 64
    let hdr := cellsGet r.1 a 64
    let end1 := 64 + 16 * imgNat hdr 8 4
    if !headerOk hdr x || 0x6000000000 < a + end1 then none
    else
      let q := mspRead r.2 (a + 64) (end1 - 64)
      let l := recsAt q.1 a (imgNat hdr 8 4)
      let recs := l.map (·.1)
      let n := manLen recs
      if l.all (fun r => r.2 == 0 && recTypes.contains r.1.typ) && placeOk s a n then
        let p := mspRead q.2 (a + end1) (n - end1)
        some (⟨x, a, hdr, recs, r.1 ++ q.1 ++ p.1⟩, p.2)
      else none
/-- The manifest alone. Log entry 65, DESIGN CHOICE. -/
def readManifest (s : State) (x : Ctx) (a : Nat) : Option Man := (fetchManifest s x a).map (·.1)
/-- Bytes of the manifest's images. -/
def Man.ld (h : Man) (a n : Nat) : List Byte := cellsGet h.mem a n

/-! ## The fit check (R404) -/

def Man.job (h : Man) : Job := { seed := 0, seedIdx := 0, recs := h.recs }
/-- What the other loaded context declares. -/
def rival (s : State) (h : Man) (typ idx : Nat) : Option (Nat × Nat) :=
  match s.job (other h.ctx) with
  | none => none
  | some j => (j.rec? typ idx).map fun r => (r.v0, r.v1)
def rivalRange (s : State) (h : Man) (typ idx : Nat) : Nat × Nat := (rival s h typ idx).getD (0, 0)
/-- R757, R798: the core is fenced. -/
def coreFenced (s : State) (c : Nat) : Bool := s.fencedTest c || s.fencedSv c
/-- The number of elements in a set of block or group numbers: V [27:16] is the first, [12:0] the count (R610). -/
def packRange (v : Nat) : Nat × Nat := (bitsOf v 16 12, bitsOf v 0 13)
/-- The counters' mode words: counter, MODE, INIT (R434). -/
def ctrImage (h : Man) : List (Nat × Nat × Nat) :=
  let l := recCtrs h.recs
  ((upto l.length).zip l).map fun e =>
    let w := ofLe (h.ld (h.addr + 64 + 16 * h.recs.length + 8 * e.1) 8)
    (e.2, bitsOf w 32 2, bitsOf w 0 32)
/-- The entry of the host window that covers an address. -/
def hostEntry (a : Nat) : Option Nat := match tierOf a with | some (.hostWin w) => some w | _ => none

/-- A range of device addresses lies in the HBM, CXL or local-store partition that a list of records declares, or in its host
window entries (R400). -/
def declared (recs : List Rec) (a n : Nat) : Bool :=
  let j : Job := { seed := 0, seedIdx := 0, recs := recs }
  let part (typ k g : Nat) : Nat × Nat := ((j.range typ k).1 * g, (j.range typ k).2 * g)
  match tierOf a with
  | none => false
  | some (.hbm k) => within (part 0x21 k 0x4000000) (a - stackBase k) n
  | some (.ls c) => within (part 0x10 c 0x10000) (a - lsBase c) n
  | some (.cxl p) =>
    -- the root ports' ranges join: the range lies in the partition of each port that it reaches
    decide (a + n ≤ cxlBase 4) &&
    (upto ((a + n - 1 - cxlBase p) / 0x20000000000 + 1)).all fun k =>
      let lo := max a (cxlBase (p + k))
      within (part 0x22 (p + k) 0x40000000) (lo - cxlBase (p + k)) (min (a + n) (cxlBase (p + k + 1)) - lo)
  | some (.hostWin w) =>
    decide (a + n ≤ hostBase + 0x400000000000) &&
    (upto ((a - hostBase + n - 1) / 0x10000000000 - w + 1)).all fun k => j.has 0x23 (w + k)

/-- R394: the inbound window is set and lies as its owner requires. -/
def inboundOk (s : State) (h : Man) (n : Nat) : Bool :=
  let b := s.wideGet 2 (0x10 + 2 * n)
  let l := s.wideGet 2 (0x11 + 2 * n)
  let base := b / 4096 * 4096
  let len := l / 4096 * 4096 - base
  let recsOf (x : Ctx) : List Rec := if x = h.ctx then h.recs else match s.job x with | none => [] | some j => j.recs
  let clear (x : Ctx) : Bool :=
    (upto 8).all (fun k =>
      let r := (Job.range { seed := 0, seedIdx := 0, recs := recsOf x } 0x21 k)
      !overlaps (base, len) (stackBase k + r.1 * 0x4000000, r.2 * 0x4000000)) &&
    (upto 4).all (fun p =>
      let r := (Job.range { seed := 0, seedIdx := 0, recs := recsOf x } 0x22 p)
      !overlaps (base, len) (cxlBase p + r.1 * 0x40000000, r.2 * 0x40000000)) &&
    (upto 128).all (fun c =>
      let r := (Job.range { seed := 0, seedIdx := 0, recs := recsOf x } 0x10 c)
      !overlaps (base, len) (lsBase c + r.1 * 0x10000, r.2 * 0x10000))
  bitOf b 2 && !touchesSeq base len &&
  match l % 4 with
  | 0 => clear .d && clear .t
  | 1 => declared (recsOf .d) base len
  | 2 => declared (recsOf .t) base len
  | _ => false

/-- R606, R610: every endpoint of the blocks is valid in the current table. -/
def routesValid (s : State) (iod : Nat) (r : Nat × Nat) : Bool :=
  (upto r.2).all fun b => (upto 256).all fun e => bitOf (routeEntry s iod (curTbl s) ((r.1 + b) * 256 + e)) 15
/-- R610: a range of route blocks or of groups within 0 to 4,095 that the other context does not share. -/
def groupsFit (v w : Nat) : Bool :=
  let r := packRange v
  decide (r.1 + r.2 ≤ 4096) && !overlaps r (packRange w)

/-- R404: the record fits. A record of a core that no record of type 0x03 names does not. Log entry 64, DEDUCED. -/
def recFits (s : State) (h : Man) (r : Rec) : Bool :=
  let j := h.job
  let i := r.idx
  let a := r.v0
  let n := r.v1
  let named (c : Nat) : Bool := j.has 0x03 c
  let rv := rivalRange s h r.typ i
  let free := !overlaps (a, n) rv
  match r.typ with
  | 0x03 => decide (i < 128) && !coreFenced s i
  | 0x10 => named i && decide (a < 768) && decide (a + n ≤ 768) && free
  | 0x11 => named (i / 2) && decide (a + n ≤ 64) && free
  | 0x12 => named i && decide (a + n ≤ 32) && free
  | 0x13 => named i && (n == 0 || (decide (1 ≤ a) && decide (a + n ≤ 20))) && free
  | 0x14 => decide (i < 4) && decide (a + n ≤ 4096) && free
  | 0x15 => named (i / 8) && decide (i % 8 < 6) && decide (a + rv.1 ≤ 64)
  | 0x16 =>
    let both := (upto 4).filter fun k => s.named (other h.ctx) (4 * i + k)
    let d := s.fget (R.FBCFG_DCNT i)
    decide (i < 32) && decide (a ≤ 16) && decide (n ≤ 16) &&
    (both.isEmpty || decide (a ≤ (match h.ctx with | .d => d | .t => 16 - d))) &&
    (!(both.any fun k => named (4 * i + k)) || decide (n + rv.2 ≤ 16))
  | 0x18 =>
    named i && decide (r.imGr + rv.1 % 65536 ≤ 32) && decide (r.dmGr + rv.1 / 65536 ≤ 64)
  | 0x19 => named i && n == 0 && a % 2 == 0 && decide (a < (j.range 0x18 i).1 % 65536 * 4096)
  | 0x1A =>
    named i && n == 0 && decide (a < 2 ^ 26) && decide (bitsOf a 9 11 ≤ 1024) && decide (bitsOf a 0 9 ≤ 256) &&
    decide (bitsOf a 20 6 * 4096 + 128 * bitsOf a 0 9 + 32 * bitsOf a 9 11 ≤ (j.range 0x18 i).1 / 65536 * 4096)
  | 0x20 => decide (i < 8) && decide (a + rv.1 ≤ 16)
  | 0x21 => decide (i < 8) && decide (a < 756) && decide (a + n ≤ 756) && free
  | 0x22 => decide (i < 4) && decide (a < 2048) && decide (a + n ≤ s.fget (R.CXLSTAT_CAPG i)) && free
  | 0x23 => decide (i < 64) && bitOf (hwBase s i) 0 && (rival s h 0x23 i).isNone
  | 0x24 => decide (i < 16) && inboundOk s h i
  | 0x30 => decide (i < 2) && groupsFit a rv.1 && routesValid s i (packRange a)
  | 0x31 => decide (i < 2) && groupsFit a rv.1 && groupsFit n rv.2
  | 0x38 =>
    decide (i < 96) && (rival s h 0x38 i).isNone && !bitOf s.fenceChans i &&
    (s.chan i).cur.isNone && (s.chan i).shadow.isNone
  | 0x41 => decide (a ≤ 20000)
  | 0x42 => decide (1200 ≤ a) && decide (a ≤ 4000) && [0, 1, 2, 3].all fun d => decide (a ≤ vfFreq s d (capPoint s d))
  | _ => true

/-- Record types that say nothing about one resource: a second record of one INDEX is no conflict.
Log entry 64, DEDUCED. -/
def manyTypes : List Nat := [0x41, 0x42, 0x50]
/-- The first record of a type, in order, that does not fit; a second record for one INDEX does not.
Log entry 64, DEDUCED. -/
def firstBad (ok : Rec → Bool) (typ : Nat) : List Nat → List Rec → Option Nat
  | _, [] => none
  | seen, r :: rest =>
    if r.typ = typ then
      if ok r && (manyTypes.contains typ || !seen.contains r.idx) then firstBad ok typ (r.idx :: seen) rest else some r.idx
    else firstBad ok typ seen rest

/-- R573 code 0x51. Log entry 64, DEDUCED. -/
def ledgerFits (s : State) (h : Man) : Bool :=
  let c := ledCfg s
  let j := h.job
  let img := ctrImage h
  let plain (n : Nat) : Bool := img.any fun e => e.1 == n && e.2.1 == 0
  let inHbm (a n : Nat) : Bool := isHbm a && declared h.recs a n
  let covered (a : Nat) : Bool := match hostEntry a with | some w => j.has 0x23 w | none => false
  let k := c.dcores.length
  (c.dcores.all fun n => j.has 0x03 n && !coreFenced s n && decide (c.bq < (j.range 0x16 (clusterOf n)).2)) &&
  inHbm c.ringBase (c.ringEnt * 256) && inHbm c.tailAddr 8 && inHbm c.laneBase (2 * k * c.slots * 256) &&
  (upto (2 * k)).all (fun i => plain (c.lcBase + i)) && plain c.doneBase && plain (c.doneBase + 1) &&
  covered c.outBase && covered c.sigBase && decide (c.hist + c.batchMax ≤ c.ringEnt) &&
  decide (c.batchMax * 80 + 70000 ≤ period s * 1000)

/-- R678 code 0x32: a binding of the context, and its V1. Every counter that it names is in the partition, its trigger's
unless R638 has it ignored; of a vote binding the entry on its I/O die is valid (R660). Log entry 64, DEDUCED. -/
def bindingFits (s : State) (h : Man) (g v1 : Nat) (b : List Byte) : Bool :=
  let j := h.job
  let ctrs := ctrImage h
  let mine (n : Nat) : Bool := ctrs.any (·.1 == n)
  let plain (n : Nat) : Bool := ctrs.any fun e => e.1 == n && e.2.1 == 0
  let inGroup (iod : Nat) : Bool := j.has 0x31 iod && rangeHas (j.range 0x31 iod).2 g
  let reach (a n : Nat) : Bool := a % 64 == 0 && declared h.recs a n
  let n := bNelem b
  let mem := bLsend b && !bSrcSu b
  v1 == 0 && (if bLsend b then inGroup (bIod b) else inGroup 0 || inGroup 1) &&
  imgNat b 0 4 / 512 == 0 && imgNat b 0x2A 2 == 0 && imgNat b 0x30 16 == 0 &&
  imgNat b 0x20 2 / 16384 == 0 && imgNat b 0x24 2 / 16384 == 0 && imgNat b 0x26 2 / 16384 == 0 &&
  decide (1 ≤ n) && decide (1 ≤ bExp b) && decide (bExp b ≤ 4096) &&
  (!mem || (reach (bSrc b) (64 + n * (if bFp32 b then 4 else 2)) && decide (1 ≤ bTrigThr b))) &&
  (bSrcSu b || plain (bTrigCtr b)) &&
  (!(bDeliv b && !bDelSu b) || (reach (bRes b) (4 * n) && reach (bCnt b) (cdiv (2 * bNoff b) 64 * 64 + 64))) &&
  mine (bSentCtr b) && mine (bDoneCtr b) &&
  (!bDelSu b || (bSrcSu b && bDeliv b && n == 1 && s.fget R.STEPCFG2_VGRP == g &&
    [0, 1].all fun iod => !inGroup iod ||
      (let e := gentry s iod (curTbl s) g; (!e.valid && iod != bIod b) || (e.valid && e.ar && e.tagk))))

/-- R678 code 0x33: a return entry, and its V1. Log entry 64, DEDUCED. -/
def retFits (s : State) (h : Man) (k v1 : Nat) (e : List Byte) : Bool :=
  let j := h.job
  v1 == 0 && decide (k < 1024) && (rival s h 0x33 k).isNone &&
  ([0, 1].any fun iod => j.has 0x31 iod && rangeHas (j.range 0x31 iod).1 (retMcg e)) &&
  imgNat e 0 2 / 4096 == 0 && imgNat e 2 2 / 16384 == 0 && imgNat e 24 8 == 0 &&
  decide (1 ≤ retTo e) && decide (retTo e ≤ 10000000) && retSlot e % 64 == 0 && declared h.recs (retSlot e) 16 &&
  (recCtrs h.recs).contains (retCtr e)

/-- R404, R573, R678: the codes of a manifest's records, in the order of their checks. Log entry 64, DEDUCED. -/
def checkOrder : List Nat :=
  [0x03, 0x10, 0x11, 0x12, 0x13, 0x14, 0x15, 0x16, 0x18, 0x19, 0x1A, 0x20, 0x21, 0x22, 0x23, 0x24, 0x30, 0x31, 0x38, 0x40,
   0x41, 0x42, 0x50, 0x51, 0x32, 0x33]

/-- The check of one code: the INDEX that fails. Log entry 65, DESIGN CHOICE. -/
def checkCode (s : State) (h : Man) (code : Nat) : Option Nat :=
  match code with
  | 0x40 => budgetFail (period s) (s.fget R.RNDWIN_DLEN) (s.fget R.RNDWIN_TWCNT) h.ctx h.recs
  | 0x50 =>
    if h.ctx = .d then
      firstBad (fun r => decide (r.idx < 8) && within (h.job.range 0x21 r.idx) r.v0 r.v1) 0x50 [] h.recs
    else none
  | 0x30 =>
    if !s.fbit R.EPCFG_VALID then some 0 else firstBad (recFits s h) 0x30 [] h.recs
  | 0x51 => if h.ctx = .d && !ledgerFits s h then some 0 else none
  | 0x32 => firstBad (fun r => bindingFits s h r.idx r.v1 (h.ld (h.addr + r.v0) 64)) 0x32 [] h.recs
  | 0x33 => firstBad (fun r => retFits s h r.idx r.v1 (h.ld (h.addr + r.v0) 32)) 0x33 [] h.recs
  | c => firstBad (recFits s h) c [] h.recs

def firstCode (s : State) (h : Man) : List Nat → Option (Nat × Nat)
  | [] => none
  | c :: r =>
    match checkCode s h c with
    | some i => some (c, i)
    | none => firstCode s h r

/-- What the manifest itself gives: a refusal code with the INDEX, or the manifest. -/
def fitBody (s : State) (x : Ctx) (a : Nat) : Nat × Nat ⊕ Man :=
  match readManifest s x a with
  | none => .inl (1, 0)
  | some h =>
    if s.loaded x || s.stage < 3 then .inl (2, 0)
    else
      match firstCode s h checkOrder with
      | some f => .inl f
      | none => .inr h
/-- The outcome of the check; none begins in a stopped device (R789). Log entry 64, DEDUCED. -/
def fitCheck (s : State) (x : Ctx) (a : Nat) : Nat × Nat ⊕ Man := if s.stopped then .inl (2, 0) else fitBody s x a

/-! ## Load (R405, R457) -/

def setPart (s : State) (off base len : Nat) : State := s.wr off (BitVec.ofNat 32 (len * 65536 + base))

/-- R297, R298, R457: what loading a context does on every core, named or not: its halt record and its wait snapshots are
cleared, its generators are seeded (R237), and its credits come from the manifest's records. -/
def loadAnyCore (s : State) (h : Man) (c : Nat) : State :=
  let x := h.ctx
  let s := s.setCc c x { idle := (s.cc c x).idle, seed := BitVec.ofNat 64 (imgNat h.hdr 0x10 8) }
  let s := [0, 1, 2, 3, 4, 5].foldl (fun s q =>
    s.fset (match x with | .d => R.QCFG_CREDD c q | .t => R.QCFG_CREDT c q) (h.job.range 0x15 (8 * c + q)).1) s
  s.wr (match x with | .d => R.CPHALTD c | .t => R.CPHALTT c) 0
/-- R298: unloading a context zeroes its credits on every core. -/
def unloadCredits (s : State) (x : Ctx) : State :=
  (upto 128).foldl (fun s c => [0, 1, 2, 3, 4, 5].foldl (fun s q =>
    s.fset (match x with | .d => R.QCFG_CREDD c q | .t => R.QCFG_CREDT c q) 0) s) s
/-- The context's part of a core after a load. Log entry 64, DEDUCED. -/
def loadCore (s : State) (h : Man) (c : Nat) : State :=
  let j := h.job
  let x := h.ctx
  let r18 := (j.rec? 0x18 c).getD ⟨0x18, c, 0, 0⟩
  let img := h.addr + r18.v1
  let ni := r18.imGr * 4096
  let place (a n : Nat) : List Host.Cell := (h.mem.filter fun e => decide (a ≤ e.1) && decide (e.1 < a + n)).map
    fun e => (e.1 - a, e.2)
  let fresh : CoreCtx := { hst := .waiting, pc := BitVec.ofNat 64 (j.range 0x19 c).1, cyc0 := s.dieCycles (dieOf c), imem := place img ni,
                           dmem := place (img + ni) (r18.dmGr * 4096), seed := BitVec.ofNat 64 (imgNat h.hdr 0x10 8)
                           idle := (s.cc c x).idle }
  let k := s.core c
  let inMat (key : Nat) : Bool :=
    let m := j.range 0x11 (2 * c + key / 65536)
    decide (m.1 ≤ key % 65536 / 1024) && decide (key % 65536 / 1024 < m.1 + m.2)
  let v := j.range 0x12 c
  let inReg (key : Nat) : Bool := decide (v.1 ≤ key / 256) && decide (key / 256 < v.1 + v.2)
  let k := { k with mats := k.mats.filter fun e => !inMat e.1, vregs := k.vregs.filter fun e => !inReg e.1 }
  let s := s.setCore c (k.setCtx x fresh)
  let p := j.range 0x10 c
  let s := setPart s (match x with | .d => R.LSPARTD c | .t => R.LSPARTT c) p.1 p.2
  let s := s.wr (match x with | .d => R.DTCFGD c | .t => R.DTCFGT c) (BitVec.ofNat 32 (j.range 0x1A c).1)
  let nmq := (j.range 0x16 (clusterOf c)).2
  let s := s.fset (match x with | .d => R.MQCFG_NMQD c | .t => R.MQCFG_NMQT c) nmq
  (upto 16).foldl (fun s q => if mqOwner s c q = some x then s.setMq c q [] else s) s

/-- R301: a cluster's barrier slots, and R457: those of the context as they start. -/
def loadCluster (s : State) (h : Man) (cl : Nat) : State :=
  let j := h.job
  let n := (j.range 0x16 cl).1
  let s := if (upto 4).any fun k => s.named (other h.ctx) (4 * cl + k) then s
    else s.fset (R.FBCFG_DCNT cl) (match h.ctx with | .d => n | .t => 16 - n)
  let d := s.fget (R.FBCFG_DCNT cl)
  let own (slot : Nat) : Bool := match h.ctx with | .d => decide (slot < d) | .t => decide (d ≤ slot)
  let s := { s with fb := s.fb.filter fun e => !(e.1 / 16 == cl && own (e.1 % 16)) }
  s.wr (R.FBERR cl) 0

/-- R434: the context's counters. -/
def loadCtrs (s : State) (h : Man) : State :=
  (ctrImage h).foldl (fun s e =>
    let v := BitVec.ofNat 32 (if e.2.1 = 3 then e.2.2 / 65536 * 65536 else e.2.2)
    s.setCtr e.1 { val := v, mode := e.2.1, owner := some h.ctx, base := if e.2.1 = 2 then v else 0 }) s

/-- R516, R518: context T's step unit, and the loss-scale latches. -/
def loadStep (s : State) : State :=
  let s := { s with step := { s.step with
    num := BitVec.ofNat 64 (s.wideGet 3 4), app := BitVec.ofNat 64 (s.wideGet 3 5), voteAt := none, result := none
    committed := false, commits := [], early := [] } }
  let s := ((s.fset R.LSSTAT_LSE (s.fget R.LSCFG_LSINIT)).fset R.LSSTAT_RUNCNT (s.wideGet 3 6 % 65536)).wr R.STEPSTAT 0
  { s with lsLatch := (noteCores s).foldl (fun t c =>
      tput 0x0F#8 t c (BitVec.ofNat 8 (s.fget R.LSCFG_LSINIT))) s.lsLatch }

/-- R408: the sequencer area of every stack is cleared. -/
def clearSequencer (s : State) : State :=
  let inSeq (a : Nat) : Bool := isHbm a && decide (0xBD0000000 ≤ a % stackBase 1)
  { s with mem := s.mem.filter fun e => !inSeq e.1, poison := s.poison.filter fun w => !inSeq (4 * w) }

/-- R70: the clock floor that the manifest declares (record 0x42) holds for firmware's requests.
Log entry 56, DEDUCED. -/
def clockFloor (s : State) (recs : List Rec) : State :=
  (recs.filter (·.typ == 0x42)).foldl (fun s r => [0, 1, 2, 3].foldl (raiseRequest r.v0) s) s

/-- R405: an accepted load. Log entry 65, DESIGN CHOICE. -/
def accept (s : State) (h : Man) : State :=
  let x := h.ctx
  let j : Job := { seed := BitVec.ofNat 64 (imgNat h.hdr 0x10 8), seedIdx := imgNat h.hdr 0x18 2, recs := h.recs
                   digest := sha384 (h.ld h.addr (manLen h.recs)), loadRnd := s.round.num }
  let s1 := (upto 32).foldl (fun s cl => loadCluster s h cl) s
  let s1 := (upto 128).foldl (fun s c => loadAnyCore s h c) s1
  let s2 := (namedCores j).foldl (fun s c => loadCore s h c) s1
  let s3 := loadCtrs s2 h
  let img (typ n : Nat) : List (Nat × List Byte) :=
    (h.recs.filter (·.typ == typ)).map fun r => (r.idx, h.ld (h.addr + r.v0) n)
  let s4 := { s3 with
    bindings := (img 0x32 64).foldl (fun t e => tput [] t (ctxNum x * 4096 + e.1) e.2) s3.bindings
    retEnts := (img 0x33 32).foldl (fun t e => tput [] t e.1 e.2) s3.retEnts }
  let s5 := (upto 8).foldl (fun s k =>
    let p := j.range 0x21 k
    let s := setPart s (match x with | .d => R.HBMPD k | .t => R.HBMPT k) p.1 p.2
    s.fset (match x with | .d => R.SCCFG_CWAYD k | .t => R.SCCFG_CWAYT k) (j.range 0x20 k).1) s4
  let s6 := (upto 4).foldl (fun s k =>
    let p := j.range 0x22 k
    setPart s (match x with | .d => R.CXLPD k | .t => R.CXLPT k) p.1 p.2) s5
  let s7 := clearSequencer (s6.setJob x (some j))
  let s8 := match x with
    | .d => ledgerLoad s7 h.recs
    | .t => loadStep s7
  noteBorder (clockFloor s8 h.recs)

/-- R414: the end of a load or unload. Log entry 65, DESIGN CHOICE. -/
def jlDone (s : State) (x : Ctx) (code item : Nat) : State :=
  { s.wr R.JLSTAT (BitVec.ofNat 32 (2 ^ 30 + ctxNum x * 2 ^ 29 + code % 256 * 65536 + item % 65536)) with loader := none }

/-- R404, R405, R789: the loader has finished its checks and its writes. A refused load leaves every register as it is, those
that its reads would count in among them (R405). Log entry 65, DESIGN CHOICE. -/
def loadDone (s : State) : State :=
  match s.loader with
  | none => s
  | some l =>
    if l.unload || !l.load then s
    else
      match fitCheck s l.ctx l.addr with
      | .inl f => jlDone s l.ctx f.1 f.2
      | .inr h => jlDone (accept (((fetchManifest s l.ctx l.addr).map (·.2)).getD s) h) l.ctx 0 0
def execLoadDone (s : State) : Host.Outcome State Fault Refusal := ifAlive s (loadDone s)

/-! ## Unload (R406, R458, R486, R575, R680) -/

/-- Step 1: the context's queued work is aborted, its harts stop, its channels and local sends are aborted.
Log entry 66, DESIGN CHOICE. -/
def unloadBegin (s : State) (x : Ctx) : State :=
  match s.job x with
  | none => s
  | some j =>
    let s := (namedCores j).foldl (fun s c =>
      let s := discardAll (fbWithdraw s c (s.cc c x).stall) c x
      let h := s.cc c x
      s.setCc c x { h with hst := .notLoaded, stall := .none, waits := [], resv := none, stepping := false }) s
    let s := (j.recs.filter (·.typ == 0x38)).foldl (fun s r => dmaAbort s r.idx) s
    let s := abortSends s fun y => y == x
    { s with unloads := s.unloads ||| 2 ^ ctxNum x }

/-- Step 2 is over: nothing of the context is in flight. Log entry 66, DESIGN CHOICE. -/
def ctxDrained (s : State) (x : Ctx) : Bool :=
  !(s.cores.any fun e => e.2.infl.any (·.2.ctx == x)) &&
  match s.job x with
  | none => true
  | some j => (j.recs.filter (·.typ == 0x38)).all fun r => (s.chan r.idx).flying.isEmpty && (readsOut s r.idx).isEmpty

/-- Log entry 64, DEDUCED. -/
def unloadCore (s : State) (x : Ctx) (c : Nat) : State :=
  let s := (upto 16).foldl (fun s q => if mqOwner s c q = some x then s.setMq c q [] else s) s
  let s := s.fset (match x with | .d => R.MQCFG_NMQD c | .t => R.MQCFG_NMQT c) 0
  let s := s.wr (match x with | .d => R.DTCFGD c | .t => R.DTCFGT c) 0
  let s := s.wr (match x with | .d => R.LSPARTD c | .t => R.LSPARTT c) 0
  let h := s.cc c x
  s.setCc c x { h with cq := [], hst := .notLoaded }

/-- R458: the context's fast-barrier slots return to their initial state. -/
def unloadCluster (s : State) (x : Ctx) (cl : Nat) : State :=
  let d := s.fget (R.FBCFG_DCNT cl)
  let own (slot : Nat) : Bool := match x with | .d => decide (slot < d) | .t => decide (d ≤ slot)
  { s with fb := s.fb.filter fun e => !(e.1 / 16 == cl && own (e.1 % 16)) }

/-- Steps 3 and 4, with what R458, R575 and R680 do after step 2. Log entry 66, DESIGN CHOICE. -/
def unloadFinish (s : State) (x : Ctx) : State :=
  match s.job x with
  | none => s
  | some j =>
    let s := match x with | .d => ledgerUnload s | .t => s
    let s := match x with
      | .d => s
      | .t => { s with step := { s.step with voteAt := none, result := none, early := [] } }
    let s := collUnload s x
    let s := ((upto 32).filter fun cl => (upto 4).any fun k => j.has 0x03 (4 * cl + k)).foldl
      (fun s cl => unloadCluster s x cl) s
    let s := unloadCredits ((namedCores j).foldl (fun s c => unloadCore s x c) s) x
    let s := { s with ctrs := s.ctrs.filter fun e => e.2.owner != some x }
    let s := dropLines s fun l => l.ctx == x
    let s := (upto 8).foldl (fun s k =>
      (s.wr (match x with | .d => R.HBMPD k | .t => R.HBMPT k) 0).fset
        (match x with | .d => R.SCCFG_CWAYD k | .t => R.SCCFG_CWAYT k) 0) s
    let s := (upto 4).foldl (fun s k => s.wr (match x with | .d => R.CXLPD k | .t => R.CXLPT k) 0) s
    { s.setJob x none with
      bindings := s.bindings.filter fun e => e.1 / 4096 != ctxNum x
      retEnts := s.retEnts.filter fun e => !j.has 0x33 e.1
      unloads := if bitOf s.unloads (ctxNum x) then s.unloads - 2 ^ ctxNum x else s.unloads }

/-- The unload is over; the loader's own goes on to its load. -/
def unloadEnd (s : State) (x : Ctx) : State :=
  let s := unloadFinish s x
  match s.loader with
  | some l =>
    if l.unload && l.ctx == x then
      if l.load then { s with loader := some { l with unload := false } } else jlDone s x 0 0
    else s
  | none => s
/-- An unload that waits goes on once its work has drained; context D's ends when its last records and seal are delivered
and the final block is signed (R575). -/
def unloadStep (s : State) (x : Ctx) : State :=
  if !bitOf s.unloads (ctxNum x) || !ctxDrained s x then s
  else
    match x with
    | .t => unloadEnd s .t
    | .d =>
      let s := drainLedger (ledgerUnload s)
      if ledgerBusy s then s else unloadEnd s .d
def execUnloadDrained (s : State) : Host.Outcome State Fault Refusal := ifAlive s (unloadStep (unloadStep s .d) .t)

/-! ## JLCTL (R413, R414) -/

/-- A GO, an UNLOAD, or both in one write, for JLCTL.CTX. -/
def jlStart (s : State) (unload load : Bool) : State :=
  s.gate 2 (s.fbit R.JLSTAT_BUSY) (fun inj s => s.refusal 2 inj) fun s =>
    let x := if s.fbit R.JLCTL_CTX then Ctx.t else Ctx.d
    let s := (s.fset R.JLSTAT_BUSY 1).fset R.JLSTAT_CTX (ctxNum x)
    let un := unload && s.loaded x
    let s := { s with loader := some ⟨x, s.wideGet 2 1, un, load⟩ }
    if un then unloadBegin s x else if load then s else jlDone s x 0 0
/-- Log entry 65, DESIGN CHOICE. -/
def execJlctlGo (req : Req) (s : State) : Host.Outcome State Fault Refusal :=
  strobe s req R.JLCTL fun s => jlStart s false true
def execJlctlUnload (req : Req) (s : State) : Host.Outcome State Fault Refusal :=
  strobe s req R.JLCTL fun s => jlStart s true false

end Sys2Proof.Machine
end

