-- ==== Sys2Proof/Machine/Regs.lean ====
section
/-! DEFINITION. Sys2Proof/Machine/Regs.lean: registers as they read, the wide-value mailboxes (R708 to R712), and a write of a
register (R17, R699 to R704, R713 to R717, R723). -/

namespace Sys2Proof.Machine

/-! ## What a register reads -/

/-- STATE of the common enable model (R718, R719): 0 STOPPED, 1 RUNNING, 2 DRAINING. -/
def enState (on work : Bool) : Nat := if on then 1 else if work then 2 else 0
def b2n (b : Bool) : Nat := if b then 1 else 0
/-- A field replaced in a word. -/
def putF (v : Nat) (f : Fld) (n : Nat) : Nat := setBits v f.lo f.w n
/-- R202, R250: STATE, INFLT and INCTX of a unit. -/
def unitView (s : State) (c q : Nat) (on : Bool) (v : Nat) : Nat :=
  let i := inflightAt s c q
  setBits (setBits (setBits v 30 2 (enState on i.isSome)) 22 1 (b2n i.isSome)) 21 1
    (match i with | some f => ctxNum f.ctx | none => 0)
/-- R296: a hart's state; a hart that waits for its first boundary reads running. Log entry 9, DEDUCED; 17, DEDUCED. -/
def hartView (h : CoreCtx) : Nat :=
  match h.hst with
  | .notLoaded => 0
  | .halted => 3
  | .waiting => 1
  | .running => if h.stall == .none then 1 else 2
/-- R502: DMASTAT.STATE; a fenced channel reads STOPPED (R798). Log entry 9, DEDUCED. -/
def chanView (s : State) (n : Nat) : Nat :=
  let c := s.chan n
  if bitOf s.fenceChans n then 0
  else if s.fbit (R.DMACTL_ENABLE n) then (if c.cur.isSome then 2 else 1)
  else if !c.flying.isEmpty || !(readsOut s n).isEmpty || (match c.cur with | some r => !r.bursts.isEmpty | none => false) then 3
  else 0
def ctxCode : Option Ctx → Nat
  | none => 0
  | some x => ctxNum x + 1
def contBits (s : State) : Nat := (s.rd R.FHCONT).toNat
/-- R734: the stage as it reads: Border while a context is loaded and Rounds run. Log entry 9, DEDUCED. -/
def stageView (s : State) : Nat := if border s then 4 else s.stage

/-- The word a register shows, from the word it holds: fields that tell of other state are computed.
Log entry 9, DEDUCED. -/
def viewWord (s : State) (p : Place) (off v : Nat) : Nat :=
  let c := p.inst
  match p.kind with
  | .core =>
    if p.off = 0x208 then unitView s c 0 (s.fbit (R.WVCTL_ENABLE c 0)) v
    else if p.off = 0x248 then unitView s c 1 (s.fbit (R.WVCTL_ENABLE c 1)) v
    else if p.off = 0x404 then unitView s c 2 (s.fbit (R.VUCTL_ENABLE c)) v
    else if p.off = 0x504 then
      enState (s.fbit (R.CPCTL_ENABLE c)) false * 2 ^ 30 + hartView (s.cc c .d) * 2 ^ 28 + hartView (s.cc c .t) * 2 ^ 26
    else if 0x540 ≤ p.off && p.off < 0x558 then
      (s.queue c .t ((p.off - 0x540) / 4)).length * 256 + (s.queue c .d ((p.off - 0x540) / 4)).length
    else if p.off = 0x804 then (s.cc c .t).cq.length * 256 + (s.cc c .d).cq.length
    else if 0x840 ≤ p.off && p.off < 0x880 then (s.mq c ((p.off - 0x840) / 4)).length
    else v
  | .sync =>
    let n := c * 4096 + p.off % 0x4000 / 4
    let k := s.ctr n
    if p.off < 0x4000 then v
    else if p.off < 0x8000 then k.read.toNat
    else if p.off < 0xC000 then ctxCode k.owner * 16 + b2n k.satf * 8 + b2n k.bad * 4 + k.mode
    else if k.mode = 2 then k.base.toNat else if k.mode = 3 then k.npart else 0
  | .dma =>
    let n := p.off / 0x40
    if p.off < 0x1800 && p.off % 0x40 = 0xC then
      setBits (setBits (setBits v 30 2 (chanView s n)) 29 1 (b2n (s.chan n).shadow.isSome)) 27 2 (ctxCode (chanOwner s n))
    else if p.off < 0x1800 && p.off % 0x40 = 0x14 then
      match (s.chan n).cur with
      | some r => r.entry % 65536 * 65536 + (r.list.nent - 1) % 65536
      | none => 0
    else v
  | .training =>
    if p.off = 0x1C then
      putF v R.STEPSTAT_STATE (if !s.loaded .t then 0 else if s.step.voteAt.isSome then 2
        else if s.fbit R.STEPCTL_ENABLE then 1 else 0)
    else v
  | .ledger =>
    if p.off = 4 then
      putF (putF (putF v R.LEDSTAT_STATE (ledState s)) R.LEDSTAT_OPENB (openBatches s)) R.LEDSTAT_SIGBUSY
        (b2n s.led.signing.isSome)
    else v
  | .collective =>
    if p.off = 4 then
      let k (i : Nat) : Nat := (s.sends.filter (·.iod == i)).length
      enState (s.fbit R.COLCTL_ENABLE) (s.sends.any (·.rest.isEmpty)) * 2 ^ 30 + k 0 * 2 ^ 25 + k 1 * 2 ^ 20
    else if 0xC ≤ p.off && p.off < 0x18 then
      groupWord s (s.fget R.GRPSEL_IOD) (s.fget R.GRPSEL_TBL) (s.fget R.GRPSEL_INDEX) ((p.off - 0xC) / 4)
    else v
  | .fabric => if p.off = 0x10 then rtEntry s else v
  | .host =>
    if p.off = 0x14 then v / 65536 * 65536 + b2n (!s.shadow.isEmpty)
    else if p.off = 0x100 then setBits v 4 4 0
    else v
  | .faultHub => if p.off = 0xC then putF v R.FHPEND_CONT (b2n (contBits s != 0)) else v
  | .security => if p.off = 0 then putF v R.STAGESTAT_STAGE (stageView s) else v
  | _ => (fun _ => v) off

/-! ## Wide values -/

/-- R708: where a block's mailbox lies. -/
def mboxBase : Block → Option Nat
  | .core => some 0x580
  | .dma => some 0x1880
  | .round | .memory | .training | .ledger | .collective | .fabric | .faultHub | .power | .test => some 0x80
  | _ => none
/-- The register of a mailbox at an offset: 0 WMSEL, 1 WMSTAT, 2 WMLO, 3 WMHI. -/
def mboxAt (p : Place) : Option Nat :=
  match mboxBase p.kind with
  | none => none
  | some m => if m ≤ p.off && p.off < m + 16 && p.off % 4 = 0 then some ((p.off - m) / 4) else none
def mboxKey (p : Place) (r : Req) : Nat := p.num * 4 + reqNum r
def State.mbox (s : State) (p : Place) (r : Req) : Mbox := tget {} s.mboxes (mboxKey p r)
def State.setMbox (s : State) (p : Place) (r : Req) (m : Mbox) : State :=
  { s with mboxes := tput {} s.mboxes (mboxKey p r) m }
/-- R708: a mailbox register as its requester reads it. -/
def mboxWord (m : Mbox) (k : Nat) : Nat :=
  match k with
  | 0 => m.sel.toNat
  | 1 => b2n m.valid * 2 ^ 31 + b2n m.err * 2 ^ 30 + b2n m.busy * 2 ^ 29 + b2n m.ovr * 2 ^ 28 + m.code
  | 2 => m.lo.toNat
  | _ => m.hi.toNat

/-- The word that a requester reads at a BAR0 offset. Log entry 9, DEDUCED. -/
def readReg (s : State) (r : Req) (off : Nat) : W32 :=
  match locate off with
  | none => 0
  | some p =>
    match mboxAt p with
    | some k => BitVec.ofNat 32 (mboxWord (s.mbox p r) k)
    | none => if (regSpec off).isSome then BitVec.ofNat 32 (viewWord s p off (s.rd off).toNat) else 0

/-- Selectors that lie in a list of ranges. -/
def selIn (l : List (Nat × Nat)) (k : Nat) : Bool := l.any fun r => decide (r.1 ≤ k) && decide (k ≤ r.2)
/-- The words of a byte string, eight bytes each. -/
def word64 (bs : List Byte) (k : Nat) : Nat := ofLe ((bs.drop (8 * k)).take 8)

/-- R465: a wait snapshot word. -/
def snapWord (s : State) (c : Nat) (x : Ctx) (e : Nat) (b : Bool) : Nat :=
  let w := tget ((0 : W64), (0 : W64)) (s.cc c x).snap e
  (if b then w.2 else w.1).toNat

/-- R300, R465, R686: a core's wide values. Log entry 15, DEDUCED. -/
def coreWide (s : State) (c sel : Nat) : Option Nat :=
  let d := s.cc c .d
  let t := s.cc c .t
  if sel = 1 then some d.haltPc.toNat
  else if sel = 2 then some t.haltPc.toNat
  else if sel = 3 then some d.haltAddr.toNat
  else if sel = 4 then some t.haltAddr.toNat
  else if sel = 5 then some (d.haltCmd.toNat % 2 ^ 64)
  else if sel = 6 then some (d.haltCmd.toNat / 2 ^ 64)
  else if sel = 7 then some (t.haltCmd.toNat % 2 ^ 64)
  else if sel = 8 then some (t.haltCmd.toNat / 2 ^ 64)
  else if 0x20 ≤ sel && sel < 0x40 then some (d.x (sel - 0x20)).toNat
  else if 0x40 ≤ sel && sel < 0x60 then some (t.x (sel - 0x40)).toNat
  else if sel = 0x60 then some d.pc.toNat
  else if sel = 0x61 then some t.pc.toNat
  else if 0x80 ≤ sel && sel < 0x8E then some (snapWord s c .d ((sel - 0x80) / 2) (sel % 2 == 1))
  else if 0x90 ≤ sel && sel < 0x9E then some (snapWord s c .t ((sel - 0x90) / 2) (sel % 2 == 1))
  else if 0xA0 ≤ sel && sel < 0xA8 then some (tget (0 : BitVec 48) d.idle (sel - 0xA0)).toNat
  else if 0xA8 ≤ sel && sel < 0xB0 then some (tget (0 : BitVec 48) t.idle (sel - 0xA8)).toNat
  else none

/-- R685: the state of group GBSEL's instance on an I/O die. Log entry 16, DESIGN CHOICE. -/
def instWide (s : State) (iod g : Nat) : Nat :=
  let tbl := if (s.inst iod 0 g).opn.isSome then 0 else if (s.inst iod 1 g).opn.isSome then 1 else curTbl s
  let i := s.inst iod tbl g
  let slots := (s.adders.flatMap (·.2)).filter fun y => y.iod == iod && y.tbl == tbl && y.grp == g && (match i.opn with | some d => y.tag == d.tag | none => false)
  (i.last.getD 0) % 65536 * 2 ^ 30 +
  match i.opn with
  | some d => 2 ^ 63 + tbl * 2 ^ 62 + d.tag % 65536 * 2 ^ 46 + i.mask % 2 ^ 14 * 2 ^ 16 + slots.length % 4096
  | none => 0

/-- The binding of a group, of whichever context has one. Log entry 16, DESIGN CHOICE. -/
def anyBinding (s : State) (g : Nat) : List Byte := if hasBinding s .d g then binding s .d g else binding s .t g

/-- R102, R417, R465, R547, R580, R628, R685, R815, R816, R819: the value of a selector; none where the block has none. -/
def wideRead (s : State) (p : Place) (sel : Nat) : Option Nat :=
  let plain := some (s.wideGet p.num sel)
  match p.kind with
  | .round =>
    match sel with
    | 1 => some s.round.num.toNat
    | 2 => some s.now
    | 3 => some s.round.stamp
    | 4 => some s.round.rndStart.toNat
    | 5 => some s.round.dtStart.toNat
    | _ => if selIn [(6, 9)] sel then some (tget (0 : W64) s.round.driftRnd (sel - 6)).toNat else none
  | .memory => if selIn [(1, 1), (0x10, 0x2F), (0x40, 0x7F)] sel then plain else none
  | .training =>
    match sel with
    | 1 => some s.step.num.toNat
    | 2 => some s.step.app.toNat
    | 3 => some s.step.commitAt
    | _ => if selIn [(4, 6), (0x10, 0x11)] sel then plain else none
  | .ledger =>
    match sel with
    | 8 => some s.led.outProd
    | 0xC => some s.led.sigProd
    | 0xF => some s.led.nextLseq
    | 0x10 => some (relSeq s.led)
    | 0x11 => some s.led.cutEnd
    | _ =>
      if selIn [(1, 0xE), (0x12, 0x13), (0x20, 0x25)] sel then plain
      else if selIn [(0x28, 0x2D)] sel then some (word64 s.led.mdig (sel - 0x28))
      else if selIn [(0x30, 0x35)] sel then some (word64 s.led.chain (sel - 0x30))
      else none
  | .collective =>
    let g := s.fget R.GBSEL_INDEX
    let k := s.fget R.RETSEL_INDEX
    let r := s.ret k
    if selIn [(1, 8)] sel then some (word64 (anyBinding s g) (sel - 1))
    else if sel = 0x10 then some (instWide s 0 g)
    else if sel = 0x11 then some (instWide s 1 g)
    else if selIn [(0x20, 0x23)] sel then some (word64 (retEnt s k) (sel - 0x20))
    else if sel = 0x24 then
      some (b2n r.armed * 2 ^ 63 + b2n r.complete * 2 ^ 62 + b2n r.stale * 2 ^ 61 + r.received % 2 ^ 40)
    else none
  | .fabric => if sel = 1 then plain else if sel = 2 then some s.advancedAt.toNat else none
  | .dma =>
    if selIn [(0x100, 0x15F)] sel then plain
    else if selIn [(0x200, 0x25F)] sel then some (match (s.chan (sel - 0x200)).cur with | some r => r.list.addr | none => 0)
    else if selIn [(0x300, 0x35F)] sel then some (match (s.chan (sel - 0x300)).cur with | some r => r.done | none => 0)
    else none
  | .faultHub =>
    if selIn [(0x10, 0x19)] sel then
      let c := tget ({} : Capture) s.captures ((sel - 0x10) / 2)
      some (if sel % 2 = 0 then c.addr else c.time)
    else if sel = 0x20 then some (s.fenceCores % 2 ^ 64)
    else if sel = 0x21 then some (s.fenceCores / 2 ^ 64)
    else if sel = 0x22 then some (s.fenceChans % 2 ^ 64)
    else if sel = 0x23 then some (s.fenceChans / 2 ^ 64)
    else if sel = 0x24 then some s.fencePorts
    else none
  | .power => if selIn [(0x10, 0x4F)] sel then plain else none
  | .test => if selIn [(0x10, 0x1F)] sel then some (tget 0 s.injAddr (sel - 0x10)) else none
  | .core => coreWide s p.inst sel
  | _ => none

/-- A write through a mailbox: the ERRCODE of R708 and the state it leaves. Log entry 15, DEDUCED; 99, DEDUCED. -/
def wideWrite (s : State) (p : Place) (sel v : Nat) : Nat × State :=
  let put := (0, s.wideSet p.num sel (BitVec.ofNat 64 v))
  -- the check whether the operation is refused, and what it does else
  let gate (bad : Bool) (no : Bool → State → State) (yes : State → State) : Nat × State :=
    let r := s.check 0x02 p.num [1] 0 (fun _ => true) (if bad then some 1 else none)
    if r.1.isSome then (3, no r.2.1 r.2.2) else (0, yes r.2.2)
  let set (t : State) : State := t.wideSet p.num sel (BitVec.ofNat 64 v)
  let plainGate (bad : Bool) : Nat × State := gate bad (fun inj t => t.refusal p.num inj) set
  if (wideRead s p sel).isNone then (1, s)
  else
    match p.kind with
    | .round =>
      if sel = 4 || sel = 5 then
        gate (rndState s != 0) (fun inj t => busyRefused t R.RNDSTAT_BUSYREF inj) fun t =>
          if sel = 4 then { t with round := { t.round with rndStart := BitVec.ofNat 64 v } }
          else { t with round := { t.round with dtStart := BitVec.ofNat 64 v } }
      else (2, s)
    | .memory =>
      if selIn [(0x10, 0x2F)] sel then
        plainGate (s.jhas .d 0x24 ((sel - 0x10) / 2) || s.jhas .t 0x24 ((sel - 0x10) / 2))
      else if selIn [(0x40, 0x7F)] sel then plainGate (s.jhas .d 0x23 (sel - 0x40) || s.jhas .t 0x23 (sel - 0x40))
      else put
    | .training => if selIn [(1, 3)] sel then (2, s) else plainGate (s.loaded .t)
    | .ledger =>
      if selIn [(8, 8), (0xC, 0xC), (0xF, 0x11), (0x28, 0x2D), (0x30, 0x35)] sel then (2, s)
      else if sel = 7 || sel = 0xB then put
      else plainGate (s.loaded .d)
    | .fabric =>
      if sel = 2 then (2, s)
      else gate (s.fbit R.RTSTAT_ARMED) (fun inj t => if t.anyJob || inj then t.refusal 6 inj else t) set
    | .dma =>
      if !selIn [(0x100, 0x15F)] sel then (2, s)
      else plainGate (chanOwner s (sel - 0x100)).isSome
    | .test =>
      let r := s.check 0x02 11 [2] 0 (fun _ => true) (if s.fbit R.TLCTL_OPEN then none else some 2)
      if r.1.isSome then (3, r.2.2.reportFrom .notice 0x02 11 2 .none 9 0 (s.endpoint 0) r.2.1)
      else (0, { r.2.2 with injAddr := tput 0 s.injAddr (sel - 0x10) v })
    | .core =>
      let c := p.inst
      let x := if selIn [(0x40, 0x5F), (0x61, 0x61)] sel then Ctx.t else Ctx.d
      if !selIn [(0x20, 0x61)] sel then (2, s)
      else
        gate (!s.fbit (R.CPCTL_DBGEN c) || (s.cc c x).hst != .halted)
          (fun inj t => if t.anyJob || inj then t.refusal p.num inj else t) fun t =>
          let h := t.cc c x
          let w := BitVec.ofNat 64 v
          t.setCc c x (if sel = 0x60 || sel = 0x61 then { h with pc := w } else h.setX (sel % 32) w)
    | _ => (2, s)

/-- What a write to WMSEL leaves there. -/
def selWord (sel : Nat) (write : Bool) : W32 := BitVec.ofNat 32 (sel % 65536 + b2n write * 2 ^ 31)
/-- R712: a write to WMSEL, WMLO or WMHI is ignored while an operation is in progress. Log entry 14, DESIGN CHOICE. -/
def mboxOver (s : State) (p : Place) (r : Req) : State := s.setMbox p r { s.mbox p r with ovr := true }
/-- R709, R710: a write to WMSEL starts an operation, which is then in progress. Log entry 14, DESIGN CHOICE. -/
def mboxStart (s : State) (p : Place) (r : Req) (sel : Nat) (write : Bool) : State :=
  let m := s.mbox p r
  if m.busy then mboxOver s p r
  else s.setMbox p r { m with sel := selWord sel write, busy := true, valid := false, err := false, code := 0 }
/-- R709, R710: an operation by a write to WMSEL that completes at once, or the completion of the same operation in progress;
during another one the write is ignored (R712). Log entry 14, DESIGN CHOICE. -/
def mboxOp (s : State) (p : Place) (r : Req) (sel : Nat) (write : Bool) : State :=
  let m := { s.mbox p r with sel := selWord sel write, busy := false }
  if (s.mbox p r).busy && (s.mbox p r).sel != m.sel then mboxOver s p r else
  if write then
    let q := wideWrite s p (sel % 65536) (m.lo.toNat + m.hi.toNat * 2 ^ 32)
    q.2.setMbox p r { m with valid := true, err := q.1 != 0, code := q.1 }
  else
    match wideRead s p (sel % 65536) with
    | none => s.setMbox p r { m with valid := true, err := true, code := 1 }
    | some v => s.setMbox p r { m with lo := BitVec.ofNat 32 v, hi := BitVec.ofNat 32 (v / 2 ^ 32), valid := true,
                                       err := false, code := 0 }

/-- The mailbox whose WMSEL lies at a BAR0 offset. -/
def mboxSel (off : Nat) : Option Place :=
  match locate off with
  | none => none
  | some p => if mboxAt p = some 0 then some p else none

def mailbox (s : State) (r : Req) (off : Nat) (f : Place → State) : Host.Outcome State Fault Refusal :=
  .next (match mboxSel off with
    | none => s
    | some p =>
      match accessEnds s r off true (some false) with
      | some s' => s'
      | none => f p)
def execMailboxRead (req : Req) (off : Nat) (sel : W16) (s : State) : Host.Outcome State Fault Refusal :=
  mailbox s req off fun p => mboxOp s p req sel.toNat false
def execMailboxWrite (req : Req) (off : Nat) (sel : W16) (s : State) : Host.Outcome State Fault Refusal :=
  mailbox s req off fun p => mboxOp s p req sel.toNat true
/-- R711: an operation that cannot complete in time ends without effect. Log entry 14, DESIGN CHOICE. -/
def execMailboxTimeout (req : Req) (off : Nat) (s : State) : Host.Outcome State Fault Refusal :=
  mailbox s req off fun p =>
    s.setMbox p req { s.mbox p req with valid := true, err := true, code := 4, busy := false }

/-! ## Writing a register -/

def legalVal : Legal → Nat → Bool
  | .any, _ => true
  | .range lo hi, v => decide (lo ≤ v) && decide (v ≤ hi)
  | .loss, v => decide (v ≤ 32) || decide (224 ≤ v)

/-- Fields whose write is a command of its own: register and lowest bit. Log entry 10, DESIGN CHOICE. -/
def rowed : List (String × Nat) :=
  [("RNDCTL", 0), ("WVCTL", 0), ("VUCTL", 0), ("CPCTL", 0), ("DMACTL", 0), ("STEPCTL", 0), ("LEDCTL", 0), ("LNKCTL", 0),
   ("COLCTL", 0), ("TLCTL", 0), ("SCNTVAL", 0), ("ARBSEED", 0), ("GRPDATA", 0), ("RTDATA", 0), ("RNDSTAT", 12), ("FHFIRST", 31), ("FHFNC", 30), ("FHFNC", 0),
   ("FHCONT", 0), ("FHCONT", 1), ("FHCONT", 2), ("FHCONT", 3), ("FHCONT", 4), ("FHCONT", 28)]

/-- R713: a value is staged. -/
def stageField (s : State) (off : Nat) (f : Fld) (v : Nat) : State :=
  let e := tget ((0 : W32), (0 : W32)) s.shadow off
  let m := (2 ^ f.w - 1) * 2 ^ f.lo
  let e' := (BitVec.ofNat 32 (setBits e.1.toNat f.lo f.w v), e.2 ||| BitVec.ofNat 32 m)
  { s with shadow := tput (0, 0) s.shadow off e' }

/-- One field of a register write (R16, R17, R704, R713). -/
def writeField (name : String) (off val : Nat) (s : State) (f : FieldSpec) : State :=
  let fl : Fld := ⟨off, f.lo, f.w⟩
  let v := bitsOf val f.lo f.w
  if name = "FLCTL" && f.lo = 30 then encGate s off (v == 3) id
  else if rowed.contains (name, f.lo) || (off = R.UPDMAP 0 && f.lo = 4) then s
  else
    let legal (s : State) (put : State → State) : State :=
      if f.legal = .any then put s else encGate s off (!legalVal f.legal v) put
    match f.acc with
    | .ro | .strobe | .lock => s
    | .rw => legal s fun s => s.fset fl v
    | .w1c => s.fset fl (s.fget fl - (s.fget fl &&& v))
    | .rws => legal s fun s => stageField s off fl v
    | .rwl b => if bitOf (s.rd off).toNat b then s else legal s fun s => s.fset fl v

/-- R704: fields of a register that a lock bit guards; and a write that differs from what a locked one holds. -/
def lockable (r : RegSpec) : Bool := r.fields.any fun f => match f.acc with | .rwl _ => true | _ => false
/-- Log entry 12, DEDUCED. -/
def meetsLock (s : State) (off val : Nat) (r : RegSpec) : Bool :=
  r.fields.any fun f => match f.acc with
    | .rwl b => bitOf (s.rd off).toNat b && bitsOf val f.lo f.w != bitsOf (s.rd off).toNat f.lo f.w
    | _ => false

def writeFields (s : State) (off val : Nat) (r : RegSpec) : State :=
  r.fields.foldl (writeField r.name off val) s

/-- A context is loaded on a core of the cluster. -/
def clusterLoaded (s : State) (cl : Nat) : Bool :=
  (upto 4).any fun k => s.named .d (4 * cl + k) || s.named .t (4 * cl + k)

/-- R298, R301, R365, R409, R410, R415, R428, R469, R503, R542, R543, R578, R601, R839: the whole write is refused. `old` and
`new` are the register's words. Log entry 81, DEDUCED. -/
def wholeRefused (s : State) (p : Place) (r : RegSpec) (off old new val : Nat) : Bool :=
  let c := p.inst
  match r.name with
  | "LSPARTD" | "LSPARTT" | "SCCFG" | "HBMPD" | "HBMPT" | "CXLPD" | "CXLPT" => true
  | "QCFG" =>
    (s.loaded .d && bitsOf old 0 7 != bitsOf new 0 7) || (s.loaded .t && bitsOf old 8 7 != bitsOf new 8 7) ||
    decide (64 < bitsOf val 0 7 + bitsOf val 8 7)
  | "DTCFGD" => s.loaded .d
  | "DTCFGT" => s.loaded .t
  | "FBCFG" => clusterLoaded s c
  | "MQCFG" => (s.named .d c || s.named .t c) && bitOf old 0 != bitOf new 0
  | "STEPCFG0" | "STEPCFG1" | "STEPCFG2" | "LSRUN" => s.loaded .t
  | "LSCFG" =>
    s.loaded .t || decide (signedOf (bitsOf new 24 8) 8 < signedOf (bitsOf new 16 8) 8) ||
    decide (signedOf (bitsOf new 8 8) 8 < signedOf (bitsOf new 24 8) 8)
  | "LEDCFG0" | "LEDCFG1" | "LEDCFG2" | "LEDCFG3" => s.loaded .d
  | "DMACFG" | "DMASIG" | "DMASNENT" => (chanOwner s (p.off / 0x40)).isSome
  | "LNKFC0" | "LNKFC1" | "LNKFC2" => decide (bitsOf new 16 10 ≤ bitsOf new 0 10) || decide (512 < bitsOf new 16 10)
  | "LNKFC3" => decide (bitsOf new 16 10 ≤ bitsOf new 0 10) || decide (64 < bitsOf new 16 10)
  | "THCFG" =>
    let tmax := bitsOf new 24 8
    let tal := bitsOf new 16 8
    let tthr := bitsOf new 8 8
    decide (tmax ≤ tthr) || decide (tal < tthr) || decide (tmax < tal) || decide (110 < tmax)
  | _ => (fun _ => false) off

/-- R93, R385, R624: a field whose change may be refused with BUSYREF: the field, the BUSYREF bit, whether it is refused
now. Log entry 84, DEDUCED. -/
def busyField (s : State) (p : Place) (r : RegSpec) (off : Nat) : Option (Fld × Fld × Bool) :=
  match r.name with
  | "RNDCTL" => some (⟨off, 4, 1⟩, R.RNDSTAT_BUSYREF, rndState s != 0)
  | "MEMCTL" => some (⟨off, 16, 2⟩, R.MEMSTAT_BUSYREF, s.anyJob)
  | "LNKCTL" => some (⟨off, 1, 2⟩, R.LNKSTAT_BUSYREF ((p.off - 0x1000) / 0x40), s.anyJob)
  | _ => none

/-- R768: a command arrives at the host path of the management mailbox; one that is unknown is answered at once. -/
def mbArrive (s : State) : State :=
  let op := s.fget R.MBCMD_OP
  if 1 ≤ op && op ≤ 8 then { s.fset R.MBSTAT_BUSY 1 with sec := { s.sec with mbq := s.sec.mbq ++ [.host] } }
  else ((s.fset R.MBSTAT_DONE 1).fset R.MBSTAT_STATUS (if s.grave then 3 else 1)).fset R.MBSTAT_RLEN 0

/-- R814: INDEX names a party of the kind. Log entry 77, DEDUCED. -/
def fenceIdx (kind idx : Nat) : Bool := kind = 0 || (kind = 1 && idx < 96) || (kind = 2 && idx < 24)
/-- R814 under R17: KIND 3, and an INDEX that the KIND then held does not have, leave their field as it is. -/
def fhfncFields (kind idx : Nat) (s : State) : State :=
  let s := encGate s R.FHFNC (kind = 3) fun s => s.fset R.FHFNC_KIND kind
  encGate s R.FHFNC (!fenceIdx (s.fget R.FHFNC_KIND) idx) fun s => s.fset R.FHFNC_INDEX idx

/-- What follows a write: settings that take effect at once (R94, R95), EPBASE (R589), a loader's two strobes in one write
(R414), records that clear (R730), state kept beside the registers. Log entry 10, DESIGN CHOICE. -/
def afterWrite (s : State) (p : Place) (name : String) (val : Nat) : State :=
  match name with
  | "RNDPER" | "RNDWIN" => if rndState s = 0 then applyRound s else s
  | "RNDCTL" | "RNDSYNC" => if rndState s < 2 then applySync s else s
  | "LNKFC0" => newThreshold s ((p.off - 0x1000) / 0x40) 0
  | "LNKFC1" => newThreshold s ((p.off - 0x1000) / 0x40) 1
  | "LNKFC2" => newThreshold s ((p.off - 0x1000) / 0x40) 2
  | "LNKFC3" => newThreshold s ((p.off - 0x1000) / 0x40) 3
  | "EPCFG" => if s.fbit R.EPCFG_LOCK then s else { s with epSet := true }
  | "JLCTL" => if val % 4 = 3 then jlStart s true true else s
  | "PBRKCFG" => settleAll s
  | "FHFNC" => fhfncFields (bitsOf val 30 2) (bitsOf val 0 7) s
  | "MBCMD" => mbArrive s
  | "REGFIRST" => if bitOf val 31 then s.wr R.REGFIRST 0 else s
  | "SCNTMODE" =>
    if bitOf val 3 then
      let n := p.inst * 4096 + p.off % 0x4000 / 4
      s.setCtr n { s.ctr n with satf := false }
    else s
  | _ => s

/-- R502: a SAMT of 0 is reserved where a signal is enabled. -/
def samtReserved (r : RegSpec) (val : Nat) : Bool := r.name == "DMASIG" && bitsOf val 16 4 == 0 && bitsOf val 30 2 != 0

/-- Registers a write of which some rule can refuse whole. Log entry 81, DEDUCED. -/
def refusable (name : String) : Bool :=
  ["LSPARTD", "LSPARTT", "SCCFG", "HBMPD", "HBMPT", "CXLPD", "CXLPT", "QCFG", "DTCFGD", "DTCFGT", "FBCFG", "MQCFG", "STEPCFG0",
   "STEPCFG1", "STEPCFG2", "LSRUN", "LSCFG", "LEDCFG0", "LEDCFG1", "LEDCFG2", "LEDCFG3", "DMACFG", "DMASIG", "DMASNENT",
   "LNKFC0", "LNKFC1", "LNKFC2", "LNKFC3", "THCFG"].contains name

/-- A write to a register, no lock in its way. Log entry 81, DEDUCED; 84, DEDUCED. -/
def putReg (s : State) (p : Place) (off : Nat) (r : RegSpec) (val : Nat) : State :=
  -- a change of a field that R93, R385 or R624 refuses, or that an injection point makes refused
  let (busy, s) := match busyField s p r off with
    | none => ((none : Option (Fld × Bool)), s)
    | some (f, b, refused) =>
      let q := s.check 0x02 p.num [1] 0 (fun _ => true)
        (if refused && bitsOf val f.lo f.w != s.fget f then some 1 else none)
      (if q.1.isSome then some (b, q.2.1) else none, q.2.2)
  match busy with
  | some (b, inj) => busyRefused s b inj
  | none =>
    let val2 := if samtReserved r val then setBits val 16 4 (s.fget (R.DMASIG_SAMT (p.off / 0x40))) else val
    let t := writeFields s off val2 r
    let q := s.check 0x02 p.num [1] 0 (fun _ => true)
      (if wholeRefused s p r off (s.rd off).toNat (t.rd off).toNat val then some 1 else none)
    if refusable r.name && q.1.isSome then q.2.2.refusal p.num q.2.1
    else
      let t := if samtReserved r val then encGate t off true id else t
      afterWrite t p r.name val

/-- A write to an assigned register. Log entry 10, DESIGN CHOICE; 12, DEDUCED. -/
def writeReg (s : State) (req : Req) (p : Place) (off : Nat) (r : RegSpec) (val : Nat) : State :=
  let go (s : State) : State :=
    if r.name == "MBCMD" && s.fbit R.MBSTAT_BUSY then s
    else
      let t := putReg s p off r val
      if lockable r then lockGate t req off (meetsLock s off val r) id else t
  if p.kind == .test && r.name != "TLCTL" then testGate s id go else go s

/-- A write to a mailbox register: WMSEL starts an operation, WMLO and WMHI are held, and of WMSTAT a 1 clears OVR. -/
def writeMbox (s : State) (req : Req) (p : Place) (k : Nat) (val : W32) : State :=
  let m := s.mbox p req
  match k with
  | 0 => mboxStart s p req val.toNat (bitOf val.toNat 31)
  | 1 => if bitOf val.toNat 28 then s.setMbox p req { m with ovr := false } else s
  | 2 => if m.busy then mboxOver s p req else s.setMbox p req { m with lo := val }
  | 3 => if m.busy then mboxOver s p req else s.setMbox p req { m with hi := val }
  | _ => s

/-- R699, R700: a 32-bit write at a BAR0 offset, by fields that have no command of their own.
Log entry 10, DESIGN CHOICE; 11, DEDUCED. -/
def registerWrite (s : State) (req : Req) (off : Nat) (val : W32) (be : Nat) : State :=
  let off := off / 4 * 4
  let mbox := (locate off).bind mboxAt
  let spec := regSpec off
  let part := if mbox.isSome || spec.isSome then some (be != 15) else none
  match accessEnds s req off true part with
  | some s' => s'
  | none =>
    match locate off with
    | none => s
    | some p =>
      match mbox, spec with
      | some k, _ => writeMbox s req p k val
      | none, some r => writeReg s req p off r val.toNat
      | none, none => s
def execRegisterWrite (req : Req) (off : Nat) (val : W32) (be : Fin 16) (s : State) : Host.Outcome State Fault Refusal :=
  .next (registerWrite s req off val be)
/-- R705, R706: an access that does not cross in time; one to a block whose stage is not reached ends as such. -/
def execRegisterAccessTimeout (req : Req) (off : Nat) (write : Bool) (s : State) : Host.Outcome State Fault Refusal :=
  .next ((accessEnds s req off write none true).getD s)

/-! ## Update domains (R714 to R717, R728) -/

/-- Domains 1 to 15 hold no field: the RWS fields of the spec are RNDPER and RNDWIN, of domain 0.
Log entry 13, DEDUCED. -/
def execUpdstbFire (req : Req) (mask : W16) (s : State) : Host.Outcome State Fault Refusal :=
  strobe s req R.UPDSTB fun s =>
    let m := mask.toNat / 2 * 2
    s.fset R.UPDSTAT_ARMED (s.fget R.UPDSTAT_ARMED - (s.fget R.UPDSTAT_ARMED &&& m))
/-- Log entry 13, DEDUCED. -/
def execUpdstbArm (req : Req) (mask : W16) (s : State) : Host.Outcome State Fault Refusal :=
  strobe s req R.UPDSTB fun s => s.forr R.UPDSTAT_ARMED (mask.toNat / 2 * 2)

end Sys2Proof.Machine
end

