-- ==== Sys2Proof/Machine/HostPort.lean ====
section
/-! DEFINITION. Sys2Proof/Machine/HostPort.lean: the PCI Express function (R687 to R698): configuration requests, BAR4, MSI-X,
Function Level Reset and PERST# (R725, R726, R850). -/

namespace Sys2Proof.Machine

/-! ## Configuration space (R687 to R690) -/

/-- R687: the revision ID of a stepping code. -/
def revision : Nat := ((Config.stepping 0).toNat - 55) % 16 * 16 + ((Config.stepping 1).toNat - 48) % 16
/-- R690: the low bits of a BAR's doubleword, and the address bits that hold what is written. -/
def barLow : Nat → Nat
  | 0x18 => 0xC
  | 0x10 | 0x20 => 0x4
  | _ => 0
def barMask (s : State) : Nat → Nat
  | 0x10 => 0xFC000000
  | 0x20 => 0xFE000000
  | 0x14 | 0x24 => 0xFFFFFFFF
  | 0x18 => 2 ^ 32 - min (bar2Size s) (2 ^ 32)
  | 0x1C => 2 ^ 32 - max 1 (bar2Size s / 2 ^ 32)
  | _ => 0
/-- A doubleword of the standard header. Log entry 43, DESIGN CHOICE. -/
def cfgRead (s : State) (off : Nat) : Nat :=
  if off = 0 then 0xF1C9 * 65536 + Config.vendor.toNat
  else if off = 4 then
    (Config.cfgWord 4).toNat / 65536 * 65536 + (tget (0 : W32) s.cfgRegs 4).toNat % 65536
  else if off = 8 then 0x120000 * 256 + revision
  else if 0x10 ≤ off && off < 0x28 then (tget (0 : W32) s.cfgRegs off &&& BitVec.ofNat 32 (barMask s off)).toNat + barLow off
  else (Config.cfgWord off).toNat
/-- The command word holds Memory Space Enable and Bus Master Enable; a BAR holds an address.
Log entry 43, DESIGN CHOICE. -/
def cfgWrite (s : State) (off : Nat) (v : W32) : State :=
  if off = 4 then
    { s.fset R.HIFSTAT_BME (bitsOf v.toNat 2 1) with cfgRegs := tput 0 s.cfgRegs 4 (v &&& 6) }
  else if 0x10 ≤ off && off < 0x28 then { s with cfgRegs := tput 0 s.cfgRegs off v }
  else s

/-- R688: Request Retry Status until Base is complete. Messages that were held are sent once nothing holds them (R689). -/
def execConfigRequest (r : CfgReq) (s : State) : Host.Outcome State Fault Refusal :=
  .next (if s.stage = 0 then { s with reply := .retry }
    else
      match r with
      | .read off => { s with reply := .data (leBytes 4 (cfgRead s (off / 4 * 4))) }
      | .write off v => msixReleaseAll (cfgWrite s (off / 4 * 4) v)
      | .power d3 => msixReleaseAll (s.fset R.HIFSTAT_D3 (b2n d3))
      | .msix on mask => msixReleaseAll { s with msixOn := on, msixMask := mask }
      | .bar2Size k => { s with cfgRegs := tput 6 s.cfgRegs 0x1000 (BitVec.ofNat 32 k) })

/-! ## BAR4 (R692 to R697) -/

/-- BAR accesses reach BAR4's message pages and doorbells, and the blocks behind them. Log entry 40, DEDUCED. -/
def bar4Up (s : State) : Bool := !s.fbit R.HIFSTAT_D3 && decide (2 ≤ s.stage) && !s.grave

/-- R687, R698, R733: BAR accesses reach the MSI-X table and PBA of the function, a Base function.
Log entry 40, DEDUCED. -/
def msixUp (s : State) : Bool := !s.fbit R.HIFSTAT_D3 && decide (1 ≤ s.stage)

/-- R697, R806: the check whether a write to BAR4 matches a form of R693, R695 or R698; one that matches none is dropped. -/
def bar4Check (s : State) (off : Nat) (bad : Bool) (f : State → State) : State :=
  let r := s.check 0x03 0 [5] off (fun _ => true) (if bad then some 5 else none)
  if r.1.isSome then
    (regFirst (r.2.2.bump R.REGERRC) .host off 5).reportFrom .notice 0x03 0 5 .none 9 0 (s.endpoint 0) r.2.1
  else f r.2.2

/-- R693, R696: a message page write of k words. Log entry 41, DESIGN CHOICE. -/
def bar4Message (s : State) (c q : Nat) (words : List W64) : State :=
  deliver s c q (words.map fun w => (w.toNat % 2 ^ 62, false)) (s.endpoint 0)
/-- Log entry 40, DEDUCED. -/
def execBar4MessageWrite (core : CoreId) (q : SlotId) (words : List W64) (s : State) : Host.Outcome State Fault Refusal :=
  .next (if !msixUp s then s
    else bar4Check s ((16 * core + q) * 4096) (words.length = 0 || 32 < words.length) fun s =>
      if bar4Up s then bar4Message s core q words else s)

/-- R695: a doorbell adds its signed value. Log entry 40, DEDUCED; 41, DESIGN CHOICE. -/
def execCounterDoorbell (ctr : CtrId) (val : W32) (s : State) : Host.Outcome State Fault Refusal :=
  .next (if !msixUp s then s
    else bar4Check s (0x800000 + 64 * ctr) false fun s =>
      if bar4Up s then ctrAdd s ctr val.toInt (s.endpoint 0) else s)

/-- The doublewords of a write to the MSI-X table; a vector that becomes unmasked is released (R698). -/
def msixWrite (s : State) (k : Nat) : List Byte → State
  | a :: b :: c :: d :: r =>
    msixWrite (msixRelease (setMsixWord s (k / 4) (k % 4) (BitVec.ofNat 32 (ofLe [a, b, c, d]))) (k / 4)) (k + 1) r
  | _ => s

/-- The 64-bit words of a message. -/
def words64 : Nat → List Byte → List W64
  | 0, _ => []
  | k + 1, l => BitVec.ofNat 64 (ofLe (l.take 8)) :: words64 k (l.drop 8)

/-- R692, R698: a doubleword read from BAR4: the MSI-X table, the pending bits, 0 elsewhere; what the host reads, for which
the command table has no row. Log entry 40, DEDUCED. -/
def bar4Read (s : State) (off : Nat) : W32 :=
  if 0x1F00000 ≤ off && off < 0x1F08000 then msixWord s ((off - 0x1F00000) / 16) (off / 4 % 4)
  else if 0x1F80000 ≤ off && off < 0x1F80100 then
    BitVec.ofNat 32 ((upto 32).foldl (fun n k => n + b2n (s.msixPend.contains ((off - 0x1F80000) / 4 * 32 + k)) * 2 ^ k) 0)
  else 0

/-- The bytes of a write, when every one is enabled. -/
def allBytes : List (Option Byte) → Option (List Byte)
  | [] => some []
  | none :: _ => none
  | some b :: r => (allBytes r).map (b :: ·)
/-- The range of the MSI-X table. -/
def inMsixTable (off n : Nat) : Bool := decide (0x1F00000 ≤ off) && decide (off + n ≤ 0x1F08000)
/-- The forms of a BAR4 write with every byte enabled: of a message page, of a doorbell, of the MSI-X table. -/
def isPage (off n : Nat) : Bool := decide (off < 0x800000) && off % 4096 == 0 && n % 8 == 0 && decide (0 < n) && decide (n ≤ 256)
def isDoorbell (off n : Nat) : Bool := decide (0x800000 ≤ off) && decide (off < 0x900000) && off % 64 == 0 && n == 4
def isVector (off n : Nat) : Bool := inMsixTable off n && (n == 4 || n == 8) && off % n == 0
/-- R693, R695, R698: a BAR4 write of a form, if what it addresses can be reached. Log entry 40, DEDUCED. -/
def bar4Write (s : State) (off : Nat) (data : List Byte) : State :=
  let n := data.length
  if isVector off n then msixWrite s ((off - 0x1F00000) / 4) data
  else if !bar4Up s then s
  else if isPage off n then bar4Message s (off / 65536) (off / 4096 % 16) (words64 (n / 8) data)
  else if isDoorbell off n then ctrAdd s ((off - 0x800000) / 64) (BitVec.ofNat 32 (ofLe data)).toInt (s.endpoint 0)
  else s
/-- R689, R697: a write to BAR4 in no form is dropped and reported; one with a byte not enabled is in none.
Log entry 40, DEDUCED. -/
def execBar4BadWrite (off : Nat) (data : List (Option Byte)) (s : State) : Host.Outcome State Fault Refusal :=
  .next (if !msixUp s then s
    else
      let n := data.length
      let fits := isPage off n || isDoorbell off n || isVector off n
      match allBytes data with
      | some bs => bar4Check s off (!fits) fun s => bar4Write s off bs
      | none => bar4Check s off true id)

/-- R698: a vector's own mask is cleared, or what held its message has ended: its one message is sent. In D3hot no access
reaches the mask (R689). Log entry 42, PRESUMED. -/
def execMsixUnmask (vec : Fin 2048) (s : State) : Host.Outcome State Fault Refusal :=
  .next (if !msixUp s then s
    else msixRelease (setMsixWord s vec 3 (BitVec.ofNat 32 ((msixWord s vec 3).toNat / 2 * 2))) vec)

/-! ## Resets seen from the host (R725, R726, R850) -/

/-- R726: an unload whose writes to the host window are discarded: it waits for no delivery and no signature. -/
def flrUnload (s : State) (x : Ctx) : State :=
  let s := unloadBegin s x
  if !bitOf s.unloads (ctxNum x) || !ctxDrained s x then s
  else
    unloadEnd (match x with
      | .d =>
        let s := drainLedger (ledgerUnload s)
        s.setLed { s.led with signing := none }
      | .t => s) x
/-- R726: a Function Level Reset. Bus Master Enable goes at once, so writes to the host window during the unload are lost.
Log entry 44, DEDUCED. -/
def flr (s : State) : State :=
  let chans := (upto 96).filter fun n => (chanOwner s n).isNone
  let s := chans.foldl dmaAbort s
  let s := s.fset R.HIFSTAT_BME 0
  let s := flrUnload (flrUnload s .d) .t
  let gen := s.fget R.HIFSTAT_GEN
  let width := s.fget R.HIFSTAT_WIDTH
  let flit := s.fget R.HIFSTAT_FLIT
  let chanReg (o : Nat) : Bool :=
    decide (R.dmaBase ≤ o) && decide (o < R.dmaBase + 0x1800) && chans.contains ((o - R.dmaBase) / 0x40)
  let chanSel (k : Nat) : Bool :=
    k / 65536 == 7 && decide (0x100 ≤ k % 65536) && decide (k % 65536 < 0x160) && chans.contains (k % 65536 - 0x100)
  let hwSel (k : Nat) : Bool := k / 65536 == 2 && decide (0x40 ≤ k % 65536) && decide (k % 65536 < 0x80)
  let s := { s with
    regs := s.regs.filter fun e => !(decide (e.1 < 0x10000) || e.1 == R.BAR2WIN || chanReg e.1)
    wide := s.wide.filter fun e => !chanSel e.1 && !hwSel e.1
    shadow := s.shadow.filter fun e => e.1 == R.RNDPER || e.1 == R.RNDWIN
    msixTab := [], msixPend := [], msixOn := false, msixMask := false, cfgRegs := []
    sec := { s.sec with spdm := {} } }
  ((s.fset R.HIFSTAT_GEN gen).fset R.HIFSTAT_WIDTH width).fset R.HIFSTAT_FLIT flit
def execFunctionLevelReset (s : State) : Host.Outcome State Fault Refusal := .next (if s.stage = 0 then s else flr s)

/-- Log entry 44, DEDUCED. -/
def linkDown (s : State) : State := ((s.fset R.HIFSTAT_GEN 0).fset R.HIFSTAT_WIDTH 0).fset R.HIFSTAT_FLIT 0
/-- PERST#: as a Function Level Reset, and the host link goes down to be trained anew. Log entry 44, DEDUCED. -/
def execPerstAssert (s : State) : Host.Outcome State Fault Refusal :=
  .next (linkDown { (if s.stage = 0 then s else flr s) with perst := true })
def execPerstDeassert (s : State) : Host.Outcome State Fault Refusal := .next { s with perst := false }
/-- R687, R727: the host link has trained; 64 GT/s is in Flit Mode. -/
def execHostLinkUp (gen width : Fin 4) (flit : Bool) (s : State) : Host.Outcome State Fault Refusal :=
  .next (if s.perst || s.stage = 0 || gen = 0 || width = 0 || (gen = 3 && !flit) then s
    else ((s.fset R.HIFSTAT_GEN gen).fset R.HIFSTAT_WIDTH width).fset R.HIFSTAT_FLIT (b2n flit))

end Sys2Proof.Machine
end

