-- ==== Sys2Proof/Machine/Fault.lean ====
section
/-! DEFINITION. Sys2Proof/Machine/Fault.lean: the Fault Hub (R773 to R815): what a report does, the Device stop and Grave
faults, fencing in service and reclaim; the test lock and the injection slots (R803 to R808, R816). -/

namespace Sys2Proof.Machine

/-! ## Stage failures (R736, R793) -/

/-- The code of the first failure since the last reset is kept. -/
def failWith (s : State) (code : Nat) : State :=
  if s.fbit R.STAGESTAT_FAIL then s
  else
    let s := s.fset R.STAGESTAT_FAIL 1
    if s.fget R.STAGESTAT_FAILCODE = 0 then s.fset R.STAGESTAT_FAILCODE code else s
/-- R736: a step fails: code 1 is reported by the fuse detector with its own cause (R801). Log entry 76, DEDUCED. -/
def stageFail (s : State) (code : Nat) : State :=
  let s := failWith s code
  match code with
  | 1 => eventReport s .grave 0x49 0 1 .module 0
  | 2 | 3 => eventReport s .grave 0x48 0 code .module 0
  | c => eventReport s .device 0x48 0 c .module 0
/-- Upsett or Siding is under way. -/
def starting (s : State) : Bool := s.stage == 2 || (s.stage == 1 && s.sec.begun)

/-! ## Reports at the Hub (R778 to R794) -/

def clsNum : Cls → Nat
  | .notice => 0
  | .corrected => 1
  | .contained => 2
  | .device => 3
  | .grave => 4
/-- R812: PARTY and PIDX. Log entry 76, DEDUCED. -/
def partyCode : Party → Nat × Nat
  | .none => (0, 0)
  | .d => (1, 0)
  | .t => (2, 0)
  | .host => (3, 0)
  | .roundIn => (4, 0)
  | .ibcia n => (5, n)
  | .cxl p => (6, p)
  | .module => (7, 0)
/-- R811: the FHCONT bit of a party. -/
def contBit : Party → Option Nat
  | .d => some 0
  | .t => some 1
  | .host => some 2
  | .roundIn => some 3
  | .ibcia n => some (4 + n)
  | .cxl p => some (28 + p)
  | .none | .module => none
/-- R779, R802: the class and the party as the Hub takes them. -/
def Report.settled (r : Report) : Report :=
  match r.cls with
  | .contained => if (contBit r.party).isSome then r else { r with cls := .notice, party := .none }
  | .device | .grave => { r with party := .module }
  | _ => if r.party = .module then { r with party := .none } else r

/-- R784, R785, R812, R815: the capture of a class. -/
def capture (s : State) (k : Nat) (r : Report) : State :=
  let p := partyCode r.party
  let s := s.wr (R.FHFIRST k) (BitVec.ofNat 32
    (2 ^ 31 + b2n r.inj * 2 ^ 29 + p.1 * 2 ^ 26 + r.acc % 16 * 2 ^ 22 + r.coll % 8 * 2 ^ 19))
  let s := s.wr (R.FHSRC k) (BitVec.ofNat 32 (r.det % 256 * 65536 + r.unit % 256 * 256 + r.cause % 256))
  let s := s.wr (R.FHMST k) (BitVec.ofNat 32 (p.2 % 256 * 2 ^ 20 + r.master % 2 ^ 20))
  { s with captures := tput {} s.captures k { addr := r.addr, time := r.time } }
/-- R784, R787: captured, or MORE. -/
def captureOrMore (s : State) (k : Nat) (r : Report) : State :=
  if s.fbit (R.FHFIRST_VALID k) then s.fset (R.FHFIRST_MORE k) 1 else capture s k r

/-- R780, R811: the pending bit of the class; a Contained report marks its party. -/
def setPending (s : State) (r : Report) : State :=
  match r.cls with
  | .notice => s.fset R.FHPEND_NOTICE 1
  | .corrected => s.fset R.FHPEND_CORR 1
  | .contained =>
    match contBit r.party with
    | some b => s.wr R.FHCONT (s.rd R.FHCONT ||| BitVec.ofNat 32 (2 ^ b))
    | none => s
  | .device => s.fset R.FHPEND_DEVICE 1
  | .grave => s.fset R.FHPEND_GRAVE 1

/-- A word of a mat or of a vector register whose value is unspecified. -/
def freeCell (key : Nat → Nat) (s : State × Tab W32) (k : Nat) : State × Tab W32 :=
  let r := s.1.freeWord
  (r.2, tput 0 s.2 (key k) r.1)
/-- R405: the mats and the registers that a manifest declares on a core, which the loader was clearing. -/
def scrambleCore (j : Job) (s : State) (c : Nat) : State :=
  let mat (e : Nat) (s : State) : State :=
    let m := j.range 0x11 (2 * c + e)
    let r := (upto (1024 * m.2)).foldl (freeCell fun k => e * 65536 + 1024 * m.1 + k) (s, (s.core c).mats)
    r.1.setCore c { r.1.core c with mats := r.2 }
  let s := mat 1 (mat 0 s)
  let v := j.range 0x12 c
  let r := (upto (256 * v.2)).foldl (freeCell fun k => 256 * v.1 + k) (s, (s.core c).vregs)
  r.1.setCore c { r.1.core c with vregs := r.2 }
/-- R405: what a load that passed its checks had written when it is abandoned holds unspecified values.
Log entry 65, DESIGN CHOICE. -/
def halfLoaded (s : State) (l : Loader) : State :=
  match (if l.unload then .inl (0, 0) else fitBody s l.ctx l.addr) with
  | .inl _ => s
  | .inr h => (namedCores h.job).foldl (scrambleCore h.job) s
/-- R789: a load in progress is abandoned. Log entry 65, DESIGN CHOICE. -/
def abandonLoad (s : State) : State :=
  match s.loader with
  | none => s
  | some l => if l.load then jlDone (halfLoaded s l) l.ctx 2 0 else s
/-- R788: the Device stop. Harts, issue, the ledger's cuts and seals and the Ibcia ports heed FHSTAT.STATE. -/
def deviceStop (s : State) : State :=
  let s := s.fset R.FHSTAT_STATE 1
  let s := (upto 96).foldl dmaAbort s
  let s := abandonLoad (abortSends s fun _ => true)
  { s with sec := { s.sec with stopAt := some (s.clk.tenths, s.fget R.FHCFG_WRDLY) } }
/-- R794: a Grave fault; the arithmetic clocks stop with FHSTAT.STATE. Log entry 78, DEDUCED. -/
def graveStop (s : State) : State :=
  let s := if s.stopped then s else deviceStop s
  let s := [0, 1, 2, 3].foldl (fun s d => s.fset (R.VFSTAT_FREQ d) 0) s
  { s.fset R.FHSTAT_STATE 2 with
    sec := { s.sec with keys := false, stopAt := none }, pw := { s.pw with selfRefresh := true } }
/-- What a class stops (R778, R788, R790, R793, R794). Log entry 76, DEDUCED. -/
def classStops (s : State) (c : Cls) : State :=
  match c with
  | .device =>
    if s.stopped then s
    else deviceStop (if starting s && !s.fbit R.STAGESTAT_FAIL then s.fset R.STAGESTAT_FAIL 1 else s)
  | .grave => if s.grave then s else graveStop s
  | _ => s

/-- R783: the interrupt of a class. -/
def classInterrupt (s : State) (k : Nat) : State :=
  if bitOf (s.fget R.FHCFG_IE) k then sendMsix s (s.fget R.FHVEC_VEC) else s

/-- A report at the Hub: counted, captured, pending, interrupt, stops (R780 to R794, R813).
Log entry 19, DESIGN CHOICE; 76, DEDUCED. -/
def takeReport (s : State) (r : Report) : State :=
  let r := r.settled
  let k := clsNum r.cls
  let s := s.bump (R.FHCNT (min 5 r.coll) k)
  let s := setPending (captureOrMore s k r) r
  classStops (classInterrupt s k) r.cls

/-- R774: the report that reaches the Hub next: of those of the oldest fabric cycle, the oldest of the lowest collector.
Log entry 19, DESIGN CHOICE. -/
def nextReport : List Report → Option Report
  | [] => none
  | r :: l => some ((l.takeWhile (·.cyc == r.cyc)).foldl (fun b x => if x.coll < b.coll then x else b) r)
/-- Log entry 19, DESIGN CHOICE. -/
def faultReport (s : State) : State :=
  match nextReport s.reports with
  | none => s
  | some r => takeReport { s with reports := s.reports.erase r } r
def execFaultReport (s : State) : Host.Outcome State Fault Refusal := .next (faultReport s)
/-- Every report on its way reaches the Hub. -/
def allReports (s : State) : State := s.reports.foldl (fun s _ => faultReport s) s

/-- R781, R782: FLT_N is low. -/
def fltLow (s : State) : Bool :=
  s.sec.base && (s.fbit R.FHPEND_GRAVE || decide (2 ^ s.fget R.FHCFG_FLTCLS ≤
    b2n (s.fbit R.FHPEND_NOTICE) + 2 * b2n (s.fbit R.FHPEND_CORR) + 4 * b2n (contBits s != 0) +
    8 * b2n (s.fbit R.FHPEND_DEVICE)))

/-- R776, R777: 10 µs without a heartbeat or a report from a collector that reports. -/
def collectorSilent (s : State) (coll : Nat) : State :=
  if collUp s coll then
    eventReport (s.forr R.FHSTAT_SILENT (2 ^ coll)) .device 0x4C coll 0 .module 0
  else s
/-- Log entry 76, DEDUCED. -/
def execCollectorSilent (coll : Fin 6) (s : State) : Host.Outcome State Fault Refusal :=
  whilePowered s fun s => collectorSilent s coll

/-! ## The Hub's registers (R787, R809, R811, R813) -/

def clearCounts (s : State) : State :=
  s.clear ((upto 6).flatMap fun c => (upto 5).map fun k => R.FHCNT c k)
def execFhctlClrcnt (req : Req) (s : State) : Host.Outcome State Fault Refusal :=
  strobe s req R.FHCTL clearCounts

/-- R787: the capture of a class below Grave is cleared. -/
def clearCapture (k : Nat) (s : State) : State :=
  if k < 4 then
    { s.clear [R.FHFIRST k, R.FHSRC k, R.FHMST k] with captures := tdel s.captures k }
  else s
def execFhfirstClear (req : Req) (k : Fin 5) (s : State) : Host.Outcome State Fault Refusal :=
  strobe s req (R.FHFIRST k) (clearCapture k)
/-- R778, R811: parties leave the Contained state. -/
def clearCont (mask : W32) (s : State) : State := s.wr R.FHCONT (s.rd R.FHCONT &&& ~~~mask)
def execFhcontClear (req : Req) (mask : W32) (s : State) : Host.Outcome State Fault Refusal :=
  strobe s req R.FHCONT (clearCont mask)

/-! ## Fencing in service (R796 to R800, R814) -/

/-- R798: a core. A core already fenced by self-test is counted once in NCORE. Log entry 77, DEDUCED. -/
def fenceCore (s : State) (c : Nat) : State :=
  let known := bitOf (s.rd (R.FENCE (c / 32))).toNat (c % 32)
  let s := s.fset R.CAPSTAT_NFSV (s.fget R.CAPSTAT_NFSV + 1)
  let s := if known then s else s.fset R.CAPSTAT_NCORE (s.fget R.CAPSTAT_NCORE - 1)
  let s := { s with fenceCores := s.fenceCores ||| 2 ^ c }
  [Ctx.d, Ctx.t].foldl (fun s x =>
    if s.named x c then
      let pr := s.probe 0x4D c [1] 0
      pr.2.reportFrom .contained 0x4D c 1 (ctxParty x) 0 0 (s.endpoint (0x80 + c)) pr.1.isSome
    else s) s
/-- R797: a party is fenced: 0 core, 1 channel, 2 port. The reclaim follows. Log entry 77, DEDUCED. -/
def fence (s : State) (kind idx : Nat) : State :=
  let mark (s : State) : State :=
    { s with sec := { s.sec with fencedAt := tput none s.sec.fencedAt (fenceKey kind idx) (some s.clk.tenths) } }
  match kind with
  | 0 => if 128 ≤ idx || bitOf s.fenceCores idx then s else mark (fenceCore s idx)
  | 1 => if 96 ≤ idx || bitOf s.fenceChans idx then s else mark { s with fenceChans := s.fenceChans ||| 2 ^ idx }
  | 2 =>
    if 24 ≤ idx || bitOf s.fencePorts idx then s
    else mark (disablePort { s with fencePorts := s.fencePorts ||| 2 ^ idx } idx)
  | _ => s

/-- R797: the instant at which the drain of a party times out. Log entry 77, DEDUCED. -/
def drainDue (s : State) (kind idx : Nat) : Nat :=
  (tget none s.sec.toldAt (fenceKey kind idx)).getD s.clk.tenths + s.fget R.FHCFG_DRTO * 100000
def execDrainTimeout (kind : Fin 3) (idx : Nat) (s : State) : Host.Outcome State Fault Refusal :=
  .next (if unstopped s kind idx then fence (advanceTo s (drainDue s kind idx)) kind idx else s)

/-- R797, R814: the party that FHFNC names is fenced. -/
def fenceNamed (s : State) : State := fence s (s.fget R.FHFNC_KIND) (s.fget R.FHFNC_INDEX)
/-- R814: a write with GO: its fields, and the fence of the party that they then name. Log entry 77, DEDUCED. -/
def fhfncGo (kind idx : Nat) (s : State) : State := fenceNamed (fhfncFields kind idx s)
def execFhfncGo (req : Req) (kind : Fin 4) (idx : Fin 128) (s : State) : Host.Outcome State Fault Refusal :=
  strobe s req R.FHFNC (fhfncGo kind idx)

/-- R796: what a fenced core holds is taken back: barrier arrivals, stores and messages on their way, and the instructions
of its units, which end without completion or signal. Log entry 77, DEDUCED. -/
def reclaimCore (s : State) (c : Nat) : State :=
  let s := { s with ctrs := s.ctrs.map fun (e : Nat × Ctr) => (e.1, e.2.dropCore c) }
  let cl := clusterOf c
  let fb : Tab FbSlot := s.fb.map fun (e : Nat × FbSlot) => if e.1 / 16 = cl then (e.1, e.2.dropCore (c % 4)) else e
  let s := { s with fb := fb.filter fun e => e.2 != ({} : FbSlot) }
  let mine := s.withy.filter fun i => i.src.1 == c
  let s := mine.foldl (fun s i => s.bump (match i.src.2 with | .d => R.WYERRD c | .t => R.WYERRT c)) s
  let s := stopOn { s with withy := s.withy.filter fun i => i.src.1 != c } c
  s.setCore c { s.core c with infl := [] }
/-- R796: the fills of the party complete; what it has merged with others' is dropped. Log entry 77, DEDUCED. -/
def reclaimParty (s : State) (kind idx : Nat) : State :=
  let s := dropMerged s (fenceKey kind idx)
  match kind with
  | 0 => reclaimCore s idx
  | 1 => dmaAbort s idx
  | _ => s
/-- R800: a reclaim has not completed in time. -/
def reclaimFails (s : State) (kind idx : Nat) : State :=
  eventReport { s with sec := { s.sec with fencedAt := tdel s.sec.fencedAt (fenceKey kind idx) } } .device 0x4D idx 2 .module 0
/-- R797: the reclaim of a party that was fenced DRTO × 10 µs ago; an injection can make it fail (R806). -/
def reclaim (s : State) (kind idx : Nat) : State :=
  match tget none s.sec.fencedAt (fenceKey kind idx) with
  | none => s
  | some t =>
    let s := advanceTo s (t + s.fget R.FHCFG_DRTO * 100000)
    if (s.armedSlot 0x4D idx [2] 0).isSome then reclaimFails s kind idx
    else reclaimParty { s with sec := { s.sec with fencedAt := tdel s.sec.fencedAt (fenceKey kind idx) } } kind idx
def execReclaim (kind : Fin 3) (idx : Nat) (s : State) : Host.Outcome State Fault Refusal := .next (reclaim s kind idx)
/-- R800: the reclaim of a fenced party does not complete within 10 µs. -/
def execReclaimTimeout (kind : Fin 3) (idx : Nat) (s : State) : Host.Outcome State Fault Refusal :=
  .next (match tget none s.sec.fencedAt (fenceKey kind idx) with
    | none => s
    | some t => reclaimFails (advanceTo s (t + s.fget R.FHCFG_DRTO * 100000 + 100000)) kind idx)

/-- R795: the lock kinds: 0 DBGLOCK, 1 EPCFG.LOCK, 2 WVCFG.LOCK, 3 TLCTL.LOCK, 4 the sensed counters.
Log entry 76, DEDUCED. -/
def lockColl (kind unit : Nat) : Nat := if kind = 0 then min 3 (unit / 32) else if kind = 2 then min 3 (unit / 64) else 4
/-- The collector of the lock's silicon reports, where it has power (R773, R776): a core's or an engine's is on its die. -/
def lockTamper (s : State) (kind unit : Nat) : State :=
  let coll := lockColl kind unit
  if !collUp s coll then s
  else
    let pr := s.probe 0x4A kind [0] 0
    pr.2.reportOn coll .grave 0x4A kind 0 .module 0 0 (s.endpoint 0) pr.1.isSome
/-- Log entry 76, DEDUCED. -/
def execLockTamper (kind : Fin 5) (unit : Nat) (s : State) : Host.Outcome State Fault Refusal :=
  whilePowered s fun s => lockTamper s kind unit

/-! ## The test lock and injection (R803 to R808, R816) -/

/-- An armed slot whose point is disarmed. -/
def disarm (s : State) (n : Nat) : State := s.fset (R.INJSTAT_ARMED n) 0
/-- R803, R804: OPEN is written; clearing it disarms every point. -/
def tlOpen (req : Req) (on : Bool) (s : State) : State :=
  lockGate s req R.TLCTL (s.fbit R.TLCTL_LOCK && on) fun s =>
    if s.fbit R.TLCTL_LOCK then s
    else if on then s.fset R.TLCTL_OPEN 1
    else (upto 16).foldl disarm (s.fset R.TLCTL_OPEN 0)
def execTlctlOpen (req : Req) (on : Bool) (s : State) : Host.Outcome State Fault Refusal :=
  strobe s req R.TLCTL (tlOpen req on)
/-- R803: LOCK is set, and OPEN is then 0. -/
def tlLock (s : State) : State := (upto 16).foldl disarm ((s.fset R.TLCTL_LOCK 1).fset R.TLCTL_OPEN 0)
def execTlctlLock (req : Req) (s : State) : Host.Outcome State Fault Refusal := strobe s req R.TLCTL tlLock

/-- R801: the detectors of the table. -/
def detectors : List Nat :=
  [0x01, 0x02, 0x03, 0x04, 0x05, 0x06, 0x07, 0x08, 0x09, 0x0A, 0x0B, 0x0C, 0x10, 0x11, 0x12, 0x13, 0x14, 0x15, 0x16, 0x17,
   0x18, 0x19, 0x1A, 0x1B, 0x1C, 0x20, 0x21, 0x22, 0x28, 0x29, 0x2A, 0x30, 0x31, 0x38, 0x39, 0x40, 0x41, 0x42, 0x43, 0x48,
   0x49, 0x4A, 0x4B, 0x4C, 0x4D, 0x4E, 0x4F]
/-- R795, R806: a detector that checks all the time makes its next check as the point is armed: lock tampering, the trip
comparator, silence, supplies and clocks, the brake and the input near its limit. Log entry 21, DEDUCED. -/
def checkNow (s : State) (n : Nat) : State :=
  let w := (s.point n).1.toNat
  let unit := bitsOf w 16 8
  let cause := bitsOf w 8 8
  if bitOf w 1 && (s.point n).2 != 0 then s
  else
    match bitsOf w 24 8, cause with
    | 0x4A, 0 => if unit < 5 then lockTamper s unit 0 else s
    | 0x4B, 0 => if unit < 6 then trip s unit else s
    | 0x4C, 0 => if unit < 6 then collectorSilent s unit else s
    | 0x4E, 4 => if unit = 0x15 then s else clockLoss s unit
    | 0x4E, 5 => if unit = 0x15 then clockLoss s unit else s
    | 0x4E, k => railFault s unit k
    | 0x4F, 4 => if unit = 0xFF then brakeEngage s else s
    | 0x4F, 6 => if unit = 0xFF then nearLimit s else s
    | _, _ => s
/-- R804, R805. Log entry 21, DEDUCED. -/
def injArm (n : Nat) (s : State) : State :=
  testGate s id fun s =>
    let taken := (upto 16).any fun m =>
      s.fbit (R.INJSTAT_ARMED m) && (s.point m).1.toNat / 65536 == (s.rd (R.INJSEL n)).toNat / 65536
    if taken || !detectors.contains (s.fget (R.INJSEL_DET n)) then s.fset (R.INJSTAT_REJ n) 1
    else
      checkNow { s.fset (R.INJSTAT_ARMED n) 1 with
        injPoint := tput (0, 0) s.injPoint n (s.rd (R.INJSEL n), tget 0 s.injAddr n) } n
def execInjctlArm (req : Req) (slot : SlotId) (s : State) : Host.Outcome State Fault Refusal :=
  strobe s req (R.INJCTL slot) (injArm slot)
/-- Log entry 21, DEDUCED. -/
def execInjctlDisarm (req : Req) (slot : SlotId) (s : State) : Host.Outcome State Fault Refusal :=
  strobe s req (R.INJCTL slot) fun s =>
    testGate s id fun s => disarm s slot

end Sys2Proof.Machine
end

