-- ==== Sys2Proof/Machine/Stage.lean ====
section
/-! DEFINITION. Sys2Proof/Machine/Stage.lean: staged start (R733 to R758), boot flash and its update (R740 to R748, R838), warm
reset (R759, R791, R792), measurements (R760, R761) and the commands of the management mailbox (R768). -/

namespace Sys2Proof.Machine

/-! ## Boot flash (R740, R838) -/

def pageKey (slot page : Nat) : Nat := slot * 2 ^ 19 + page
def flashPage (s : State) (slot page : Nat) : List Byte :=
  tget ((upto 256).map fun k => Config.flashByte slot (page * 256 + k)) s.sec.flash (pageKey slot page)
/-- Log entry 55, DESIGN CHOICE. -/
def flashBytes (s : State) (slot a n : Nat) : List Byte :=
  (upto n).map fun k => (flashPage s slot ((a + k) / 256)).getD ((a + k) % 256) 0
def putPage (s : State) (slot page : Nat) (bs : List Byte) : State :=
  { s with sec := { s.sec with flash := tins s.sec.flash (pageKey slot page) bs } }
/-- What a page holds after a program: bytes that were not erased are unspecified. Log entry 60, DESIGN CHOICE. -/
def programmed : List Byte → List Byte → List Byte → List Byte
  | o :: os, d :: ds, f :: fs => (if o = 0xFF then d else f) :: programmed os ds fs
  | _, _, _ => []
/-- The pages that an operation changes. -/
def FlashOp.pages (o : FlashOp) : List Nat :=
  match o.data with
  | none => (upto 256).map (o.addr / 65536 * 256 + ·)
  | some _ => [o.addr / 256]
/-- A page after an operation; after a failure its bytes are unspecified. Log entry 60, DESIGN CHOICE. -/
def flashResult (o : FlashOp) (ok : Bool) (s : State) (page : Nat) : State :=
  let r := s.freeBytes 256
  putPage r.2 o.slot page (if !ok then r.1 else
    match o.data with
    | none => List.replicate 256 0xFF
    | some d => programmed (flashPage s o.slot page) d r.1)
/-- The operation under way ends. Log entry 60, DESIGN CHOICE. -/
def flashEnd (s : State) (ok : Bool) : State :=
  match s.sec.flop with
  | none => s
  | some o =>
    let s := { s.fset R.FLSTAT_BUSY 0 with sec := { s.sec with flop := none } }
    o.pages.foldl (flashResult o ok) (if ok then s else s.fset R.FLSTAT_ERR 1)
/-- R838: an operation on the flash that FLSTAT.SLOT names; one that names the running image's flash is refused. -/
def flashStart (addr : Nat) (data : State → Option (List Byte)) (s : State) : State :=
  let s := s.fset R.FLCTL_ADDR addr
  if s.fbit R.FLSTAT_BUSY || (decide (2 ≤ s.stage) && s.fget R.FLSTAT_SLOT == s.fget R.BOOTSTAT_SLOT) then
    s.fset R.FLSTAT_REF 1
  else
    { s.fset R.FLSTAT_BUSY 1 with
      sec := { s.sec with flop := some ⟨s.fget R.FLSTAT_SLOT, s.fget R.FLCTL_ADDR, data s⟩ } }
def flbuf (s : State) : List Byte := (upto 64).flatMap fun w => leBytes 4 (s.rd (R.FLBUF w)).toNat
/-- Log entry 60, DESIGN CHOICE. -/
def execFlashErase (req : Req) (addr : Nat) (s : State) : Host.Outcome State Fault Refusal :=
  strobe s req R.FLCTL (flashStart addr fun _ => none)
/-- Log entry 60, DESIGN CHOICE. -/
def execFlashProgram (req : Req) (addr : Nat) (s : State) : Host.Outcome State Fault Refusal :=
  strobe s req R.FLCTL (flashStart addr fun s => some (flbuf s))
/-- Log entry 60, DESIGN CHOICE. -/
def execFlashOpComplete (ok : Bool) (s : State) : Host.Outcome State Fault Refusal := .next (flashEnd s ok)

/-! ## Images (R745 to R748) -/

def imgSvn (h : List Byte) : Nat := imgNat h 6 1
def imgKgen (h : List Byte) : Nat := imgNat h 7 1
def imgLength (h : List Byte) : Nat := imgNat h 8 8
def imgNsec (h : List Byte) : Nat := imgNat h 0x10 4
/-- The header, the section table and the key block. -/
def headBytes : Nat := 0x140 + 8664
/-- TYPE, OFFSET and LENGTH of a section. -/
def sect (h : List Byte) (k : Nat) : Nat × Nat × Nat :=
  (imgNat h (0x40 + 16 * k) 4, imgNat h (0x44 + 16 * k) 4, imgNat h (0x48 + 16 * k) 8)
def sectOk (h : List Byte) (k : Nat) : Bool :=
  let e := sect h k
  decide (1 ≤ e.1) && decide (e.1 ≤ 6) && decide (e.2.1 + e.2.2 ≤ imgLength h)
/-- R745, R746, R748: what can be told from the header alone. -/
def headerGood (fw kg : Nat) (h : List Byte) : Bool :=
  imgNat h 0 4 == 0x4A584649 && imgNat h 4 2 == 1 && decide (imgSvn h ≤ 127) && decide (imgKgen h ≤ 127) &&
  decide (headBytes ≤ imgLength h) && decide (imgLength h + 384 + 7856 ≤ 2 ^ 26) &&
  decide (1 ≤ imgNsec h) && decide (imgNsec h ≤ 16) && decide (imgNat h 0x14 4 ≤ 1) && imgNat h 0x18 40 == 0 &&
  (upto (imgNsec h)).all (sectOk h) &&
  imgNat h 0x140 4 == imgKgen h && decide (kg ≤ imgKgen h) && imgNat h (0x140 + 420) 4 == 0 && decide (fw ≤ imgSvn h)
def slice (l : List Byte) (o n : Nat) : List Byte := (l.drop o).take n
/-- R746: both signatures of the key block. -/
def keyBlockGood (h : List Byte) : Bool :=
  let d := sha384 (slice h 0x140 424)
  rsaVerify Config.rsaRoot d (slice h (0x140 + 424) 384) &&
  slhVerify slh128s Config.slhRoot d (slice h (0x140 + 808) 7856)
/-- R747: both signatures of the image. Log entry 55, DESIGN CHOICE. -/
def imageGood (h image sigs : List Byte) : Bool :=
  let d := sha384 image
  rsaVerify (slice h (0x140 + 4) 384) d (slice sigs 0 384) &&
  slhVerify slh128s (slice h (0x140 + 388) 32) d (slice sigs 384 7856)
def imageHead (s : State) (slot : Nat) : List Byte := flashBytes s slot 0 headBytes
def imageBody (s : State) (slot : Nat) : List Byte := flashBytes s slot 0 (imgLength (imageHead s slot))
/-- R742, R748, R769: the result of an attempt: 1 verified, 2 header or rollback failure, 3 signature failure. -/
def verdict (s : State) (slot : Nat) : Nat :=
  let h := imageHead s slot
  if !headerGood s.sec.fw s.sec.kg h then 2
  else if keyBlockGood h && imageGood h (imageBody s slot) (flashBytes s slot (imgLength h) 8240) then 1
  else 3
/-- The bytes of the running image's first section of a type. -/
def section_ (s : State) (typ : Nat) : List Byte :=
  let slot := s.fget R.BOOTSTAT_SLOT
  let h := imageHead s slot
  match (upto (imgNsec h)).find? fun k => (sect h k).1 == typ with
  | none => []
  | some k => flashBytes s slot (sect h k).2.1 (sect h k).2.2

/-! ## Upsett (R741 to R744, R751, R752, R754) -/

/-- A step that depends on one that failed is not begun (R736, R754). Log entry 2, DESIGN CHOICE; 78, DEDUCED. -/
def unlessFailed (f : State → State) (s : State) : State := if s.fbit R.STAGESTAT_FAIL then s else f s
def setRes (s : State) (slot v : Nat) : State := s.fset (if slot = 0 then R.BOOTSTAT_ARES else R.BOOTSTAT_BRES) v
/-- R742, R769: the image runs. Log entry 55, DESIGN CHOICE. -/
def runImage (s : State) (slot : Nat) (fallback : Bool) : State :=
  let h := imageHead s slot
  let s := (s.fset R.BOOTSTAT_SLOT slot).fset R.BOOTSTAT_FALLBACK (b2n fallback)
  let s := (s.fset R.BOOTSTAT_SVN (imgSvn h)).fset R.BOOTSTAT_KGEN (imgKgen h)
  let s := (s.fset R.BOOTSTAT_DBGPOL (imgNat h 0x14 1)).fset R.FLSTAT_SLOT (1 - slot)
  { s with sec := { s.sec with sysRec := section_ s 5 } }
/-- Whether a step of a start stage finds a failure of detector `det` and a cause: free, or as an injection makes it
(R805, R806). Log entry 21, DEDUCED. -/
def State.stageEvent (s : State) (det cause : Nat) : Bool × State :=
  let r := s.freeBool
  (r.1 || (s.armedSlot det 0 [cause] 0).isSome, r.2)
/-- U1: the PLLs lock within 10 ms, none without the link reference clock (R830). Log entry 61, DESIGN CHOICE. -/
def stepClocks (s : State) : State :=
  let r := s.stageEvent 0x48 4
  if r.1 || !s.clk.present then stageFail (pullTo r.2 (s.clk.tenths + 100000000)) 4 else r.2
/-- U2: the preferred image, then the other (R741, R742, R744). `pin` is the level of BOOT_SEL. -/
def stepImages (s : State) : State :=
  let r := s.freeBool
  let s := r.2.fset R.BOOTSTAT_PIN (b2n r.1)
  let first := if s.sec.pref = 1 then 0 else if s.sec.pref = 2 then 1 else b2n r.1
  let v := verdict s first
  let s := setRes s first v
  if v = 1 then runImage s first false
  else
    let v := verdict s (1 - first)
    let s := setRes s (1 - first) v
    if v = 1 then eventReport (runImage s (1 - first) true) .notice 0x48 0 0x10 .none 0 else stageFail s 2
def certArea (s : State) (slot : Nat) : List Byte := flashBytes s slot 0x4000000 0x100000
/-- U3: keys and certificates (R751, R752): for each key the chain of a flash that matches it, flash A's where both do.
Log entry 62, DESIGN CHOICE. -/
def stepKeys (s : State) : State :=
  let a (k : Nat) : Bool := chainMatches (certArea s 0) k
  let b (k : Nat) : Bool := chainMatches (certArea s 1) k
  let chain (k : Nat) : List Byte := Config.chain (certArea s (if a k then 0 else 1)) k
  let t := { s with sec := { s.sec with keys := true, chains := [0, 1, 2].foldl (fun t k => tput [] t k (chain k)) [] } }
  if [0, 1, 2].all fun k => a k && b k then t
  else if [0, 1, 2].all fun k => a k || b k then eventReport t .notice 0x48 0 0x11 .none 0
  else stageFail t 3
/-- U4 on a core: library curves in slots 20 to 31, WVCFG loaded and locked (R201, R219); a WVCFG whose LOCK is still held
keeps its fields. Log entry 53, DEDUCED; 55, DESIGN CHOICE. -/
def tablesCore (curves : List (List Byte)) (cfg : List Byte) (s : State) (c : Nat) : State :=
  let k := s.core c
  let cs := ((upto 12).zip curves).foldl (fun t e => tput [] t (20 + e.1) e.2) k.curves
  let s := (s.setCore c { k with curves := cs }).wr (R.VUCRVV c) 0xFFF00000
  let w (e : Nat) : W32 := (Config.wvcfg cfg e &&& 0x0FFF0FFF) ||| 0x80000000
  let put (s : State) (e : Nat) : State := if s.fbit (R.WVCFG_LOCK c e) then s else s.wr (R.WVCFG c e) (w e)
  put (put s 0) 1
/-- U4 on a die: its table, firmware's request, and the clock at its effective point (R819, R821).
Log entry 55, DESIGN CHOICE. -/
def tablesDie (vf : List Byte) (s : State) (d : Nat) : State :=
  let s := (upto 16).foldl (fun s p =>
    s.wideSet 9 (0x10 + 16 * d + p) (BitVec.ofNat 64 (vfEntry vf d p))) s
  let r := s.freeNat
  let s := settle (r.2.fset (R.VFSTAT_REQ d) (r.1 % 16)) d
  riseMark (runAt s d (effPoint s d)) d
def stepTables (s : State) : State :=
  let lib := section_ s 3
  let s' := [0, 1, 2, 3].foldl (tablesDie (section_ s 2)) s
  (upto 128).foldl (tablesCore ((upto 12).map fun k => libTable (Config.libCurve lib (20 + k)) (20 + k)) (section_ s 4)) s'
/-- U5: HBM3E training. -/
def stepHbm (s : State) : State :=
  let r := s.freeBool
  if r.1 then stageFail r.2 5
  else
    let m := r.2.freeBool
    let s := m.2.fset R.MEMCTL_REFMODE (b2n m.1)
    { s with pw := { s.pw with selfRefresh := false } }
/-- A core is fenced by self-test (R758). -/
def fenceTest (count : Fld) (s : State) (c : Nat) : State :=
  let s := s.wr (R.FENCE (c / 32)) (s.rd (R.FENCE (c / 32)) ||| BitVec.ofNat 32 (2 ^ (c % 32)))
  let s := (s.fset count (s.fget count + 1)).fset R.CAPSTAT_NCORE (s.fget R.CAPSTAT_NCORE - 1)
  let pr := s.probe 0x48 0 [0x12] 0
  pr.2.reportFrom .notice 0x48 0 0x12 .none 0xB 0 (s.endpoint (0x80 + c)) pr.1.isSome
/-- A self-test of cores: which fail is not foreseen. Log entry 61, DESIGN CHOICE. -/
def selfTest (count : Fld) (cores : List Nat) (s : State) : State :=
  cores.foldl (fun s c =>
    let r := s.stageEvent 0x48 0x12
    if r.1 then fenceTest count r.2 c else r.2) s
/-- Log entry 77, DEDUCED. -/
def fencedTest (s : State) (c : Nat) : Bool := s.fencedTest c
/-- The cores that are not fenced. -/
def unfenced (s : State) : List Nat := (upto 128).filter fun c => !coreFenced s c
/-- R736 code 9. -/
def allFenced (s : State) : State :=
  if (upto 128).all (coreFenced s) || (s.armedSlot 0x48 0 [9] 0).isSome then stageFail s 9 else s
/-- U6: local stores and shared caches (R407); a core that is fenced still is not tested again (R757). -/
def stepStores (s : State) : State :=
  let s := selfTest R.CAPSTAT_NFLS (unfenced s) (s.fset R.CAPSTAT_NCORE (unfenced s).length)
  let r := s.freeBool
  allFenced (if r.1 then stageFail r.2 6 else r.2)

def setMeas (s : State) (k : Nat) (v : List Byte) : State :=
  { s with sec := { s.sec with meas := tput [] s.sec.meas k v } }
/-- A measurement whose digest input the spec does not lay out. Log entry 63, DEDUCED. -/
def setMeasFree (s : State) (k : Nat) (raw : List Byte) : State :=
  let r := s.freeBytes 48
  setMeas r.2 k (raw ++ r.1)
/-- Log entry 63, DEDUCED. -/
def counterBytes (s : State) : List Byte := [BitVec.ofNat 8 s.sec.fw, BitVec.ofNat 8 s.sec.kg]
/-- U7: measurements 3 to 6; 7 and 8 are read from the registers they report (R760). Log entry 63, DEDUCED. -/
def stepMeasure (s : State) : State :=
  let f (x : Fld) : Byte := BitVec.ofNat 8 (s.fget x)
  let s := setMeas s 3 [f R.BOOTSTAT_SLOT, f R.BOOTSTAT_SVN, f R.BOOTSTAT_KGEN, f R.BOOTSTAT_FALLBACK]
  let s := setMeas s 4 (sha384 (imageBody s (s.fget R.BOOTSTAT_SLOT)))
  setMeasFree (setMeas s 5 (counterBytes s)) 6 []
/-- R755: what reading an image adds to the bound, in tenths of ns: its bytes beyond 48 MiB, at 400 MB/s.
Log entry 61, DESIGN CHOICE. -/
def readExtra (s : State) (slot : Nat) : Nat :=
  let h := imageHead s slot
  if headerGood s.sec.fw s.sec.kg h then (imgLength h + 8240 - 0x3000000) * 25 else 0
/-- The bound of Upsett: both images count where the preferred one does not verify. Log entry 61, DESIGN CHOICE. -/
def bootExtra (s : State) (first : Nat) : Nat :=
  if verdict s first = 1 then readExtra s first else readExtra s first + readExtra s (1 - first)
/-- R41, R736 code 8: Upsett's bound expires: 2 s after 54 V was good, or after the warm reset. -/
def upsettBound (s : State) (first : Nat) : State :=
  stageFail (pullTo s (s.sec.good54 + 20000000000 + bootExtra s first)) 8
/-- Every step is complete: U7, and STAGE reads Upsett, unless the bound expires. Log entry 61, DESIGN CHOICE. -/
def upsettEnd (s : State) : State :=
  let r := s.stageEvent 0x48 8
  if r.1 then upsettBound r.2 (if s.fbit R.BOOTSTAT_FALLBACK then 1 - s.fget R.BOOTSTAT_SLOT else s.fget R.BOOTSTAT_SLOT)
  else stepMeasure (r.2.fset R.STAGESTAT_STAGE 2)
/-- R754: Upsett. U2 and U6 depend on U1 alone; U3, U4 and U5 on U2. Of failures in one run the first in the table's order
counts as the first. Log entry 61, DESIGN CHOICE. -/
def upsett (s : State) : State :=
  unlessFailed (fun s =>
    unlessFailed upsettEnd (stepStores (unlessFailed (fun s => stepHbm (stepTables (stepKeys s))) (stepImages s))))
    (stepClocks s)
/-- 54 V becomes good: the bounds of R41 run from here. -/
def good54V (s : State) : State :=
  if s.sec.in54 then s else { s with sec := { s.sec with in54 := true, good54 := s.clk.tenths } }
/-- Upsett is under way (R776). -/
def beginUpsett (s : State) : State :=
  let s := good54V s
  { s with sec := { s.sec with begun := true } }
/-- R735, R846: Upsett begins when Base is complete and 54 V is good. -/
def tryUpsett (s : State) : State :=
  if s.stage = 1 && s.sec.in54 && !s.pw.tripped && !s.grave && !s.fbit R.STAGESTAT_FAIL then upsett (beginUpsett s) else s

/-! ## Base and power (R733, R738, R735, R848) -/

/-- R738: Base. A fuse word may be uncorrectable; the root key hashes may differ from their copies in mask ROM, which fails as
a fuse word does. RBSTAT reads the counters (R749). Log entry 61, DESIGN CHOICE. -/
def baseSteps (s : State) : State :=
  let s := { s with sec := { s.sec with base := true } }
  let s := setMeasFree (setMeasFree s 1 (leBytes 4 Config.romVersion.toNat)) 2 []
  let s := (s.fset R.RBSTAT_FWCNT s.sec.fw).fset R.RBSTAT_KGCNT s.sec.kg
  let r := s.freeBool
  if r.1 || Config.rootFuse != Config.rootRom then stageFail r.2 1 else r.2
/-- A Base whose bound has expired stays as it is (R736). Log entry 61, DESIGN CHOICE. -/
def execAuxGood (s : State) : Host.Outcome State Fault Refusal :=
  .next (if s.sec.base || s.fbit R.STAGESTAT_FAIL then s else tryUpsett (baseSteps s))
/-- R735: Upsett begins again, after whatever failure of Device class; one of Grave class (codes 1 to 3) lasts. The code of
the first failure is kept. Log entry 53, DEDUCED. -/
def againV (s : State) : State :=
  let c := s.fget R.STAGESTAT_FAILCODE
  if 1 ≤ c && c ≤ 3 then s else s.fset R.STAGESTAT_FAIL 0
/-- Log entry 61, DESIGN CHOICE. -/
def execInput54vGood (s : State) : Host.Outcome State Fault Refusal :=
  .next (if s.sec.in54 then s else tryUpsett (againV (good54V s)))

/-- R848: 3.3 V AUX is lost; the next rise is a power-on. Log entry 53, DEDUCED. -/
def execAuxLoss (s : State) : Host.Outcome State Fault Refusal := .next (outlives (flashEnd s false))

/-- R735: 54 V is lost after Upsett has begun. Log entry 53, DEDUCED. -/
def lose54 (s : State) : State :=
  let t := railsOff s
  { t with sec := { t.sec with in54 := false } }
/-- R818, R837: 54 V is lost below 46 V or above 60 V: which of the two is free. Log entry 53, DEDUCED. -/
def execInput54vLoss (s : State) : Host.Outcome State Fault Refusal :=
  .next (if !s.sec.in54 then s
    else if !s.sec.base then { s with sec := { s.sec with in54 := false } }
    else
      let r := s.freeBool
      lose54 (eventReport r.2 .device 0x4E 0x0B (if r.1 then 2 else 1) .module 0))

/-! ## Siding (R756 to R758) -/

/-- R589: EPBASE as written, or as the system-configuration record gives it; a lock that is still held keeps it (R626).
Log entry 53, DEDUCED. -/
def validEp (s : State) : State :=
  let lock (s : State) : State := (s.fset R.EPCFG_VALID 1).fset R.EPCFG_LOCK 1
  if s.epSet || s.fbit R.EPCFG_LOCK then lock s
  else
    match Config.epbase s.sec.sysRec with
    | some e => lock (s.fset R.EPCFG_EPBASE e.toNat)
    | none => s
/-- R288, R803: the debug policy. -/
def debugPolicy (s : State) : State :=
  if s.fbit R.BOOTSTAT_DBGPOL then s
  else tlLock ((upto 128).foldl (fun s c => s.fset (R.CPCTL_DBGLOCK c) 1) s)
/-- R196, R246, R289: a core is released. -/
def releaseCore (s : State) (c : Nat) : State :=
  if coreFenced s c then s
  else
    (((s.fset (R.WVCTL_ENABLE c 0) 1).fset (R.WVCTL_ENABLE c 1) 1).fset (R.VUCTL_ENABLE c) 1).fset (R.CPCTL_ENABLE c) 1
/-- R486, R540, R576, R681: the block enables. -/
def releaseBlocks (s : State) : State :=
  let s := (upto 96).foldl (fun s n => s.fset (R.DMACTL_ENABLE n) 1) s
  ((s.fset R.STEPCTL_ENABLE 1).fset R.LEDCTL_ENABLE 1).fset R.COLCTL_ENABLE 1
/-- R756: steps 5 to 8, and the end of Siding (R792). -/
def sidingEnd (s : State) : State :=
  let s := releaseBlocks ((upto 128).foldl releaseCore (debugPolicy s))
  let s := (upto 24).foldl (fun s n => setPortEnable s n true) s
  let s := setMeas s 9 (leBytes 4 (s.fget R.EPCFG_EPBASE) ++ sha384 s.sec.sysRec)
  (s.fset R.FHSTAT_WRCNT 0).fset R.STAGESTAT_STAGE 3
/-- R756: die bridges may fail to train (code 7), cores to pass their logic self-test. Log entry 61, DESIGN CHOICE. -/
def siding (s : State) : State :=
  let r := s.stageEvent 0x48 7
  if r.1 then stageFail r.2 7
  else
    let s := validEp r.2
    let s := selfTest R.CAPSTAT_NFLG (unfenced s) s
    unlessFailed sidingEnd (allFenced s)
def execSiding (s : State) : Host.Outcome State Fault Refusal :=
  .next (if s.stage = 2 && !s.grave && !s.fbit R.STAGESTAT_FAIL then siding s else s)

/-- R41, R736, R755: the bound of the stage that is not complete expires: Base's 20 ms after AUX, Upsett's 2 s and Siding's
8 s after 54 V is good. Log entry 61, DESIGN CHOICE. -/
def execStageBoundExpiry (s : State) : Host.Outcome State Fault Refusal :=
  .next (if s.grave || s.fbit R.STAGESTAT_FAIL then s
    else if !s.sec.base then stageFail (pullTo s (s.clk.tenths + 200000000)) 8
    else if s.stage = 1 then
      let r := (beginUpsett s).freeBool
      let first := if s.sec.pref = 1 then 0 else if s.sec.pref = 2 then 1 else b2n r.1
      upsettBound r.2 first
    else if s.stage = 2 then stageFail (pullTo s (s.sec.good54 + 80000000000)) 8
    else s)
/-- R736 code 4, R830: U1 fails. Log entry 61, DESIGN CHOICE. -/
def execPllLockTimeout (_pll : Nat) (s : State) : Host.Outcome State Fault Refusal :=
  .next (if s.stage = 1 && !s.grave && !s.fbit R.STAGESTAT_FAIL then
      let s := beginUpsett s
      stageFail (pullTo s (s.sec.good54 + 100000000)) 4
    else s)

/-! ## Warm reset (R759, R791, R792) -/

/-- R407, R759: every unfenced local store is copied into its slot of the sequencer area. Log entry 53, DEDUCED. -/
def dumpStores (s : State) : State :=
  (unfenced s).foldl (fun s c => copyRange s (lsBase c) (seqSlot c) 0x3000000) s
/-- R725, R787: registers that a warm reset keeps: the captures, FHCNT and FHCONT. Log entry 53, DEDUCED. -/
def warmKept (o : Nat) : Bool :=
  o == R.FHCONT || (decide (R.FHFIRST 0 ≤ o) && decide (o ≤ R.FHMST 4)) ||
  (decide (R.FHCNT 0 0 ≤ o) && decide (o ≤ R.FHCNT 5 4))
/-- R725, R759 steps 3 to 5: HBM in self-refresh keeps its contents; fences in service of channels and ports last, those of
cores end (R787, R798). Log entry 53, DEDUCED. -/
def warmState (s : State) : State :=
  let t := outlives s
  let kept (a : Nat) : Bool := isHbm a || cxlMem a
  let mem := s.mem.filter fun e => kept e.1
  let poison := s.poison.filter fun w => kept (4 * w)
  let meas := s.sec.meas.filter fun e => decide (e.1 ≤ 2)
  let sb : Sideband := { dyn := s.sec.sb.dyn, resp := s.sec.sb.resp }
  let t := { t with
    regs := s.regs.filter fun e => warmKept e.1
    mem := mem, poison := poison, clk := s.clk, captures := s.captures
    fenceChans := s.fenceChans, fencePorts := s.fencePorts, pw := { t.pw with selfRefresh := true }
    sec := { t.sec with base := true, good54 := s.clk.tenths, pref := s.fget R.BOOTCTL_PREF, meas := meas, sb := sb } }
  let t := t.fset R.FHSTAT_WRCNT (s.fget R.FHSTAT_WRCNT)
  (t.fset R.RBSTAT_FWCNT s.sec.fw).fset R.RBSTAT_KGCNT s.sec.kg
/-- R759, R794: reports on their way arrive first; no warm reset leaves GRAVE. -/
def warmReset (s : State) : State :=
  let s := allReports (flashEnd s false)
  if s.grave || !s.sec.base then s
  else tryUpsett (warmState (if s.fbit R.MEMCTL_DUMP && s.stopped then dumpStores s else s))
/-- R791, R792: WRDLY ms after DEVSTOP began. -/
def autoWarm (s : State) : State :=
  match s.sec.stopAt with
  | none => s
  | some (t, ms) =>
    let s := advanceTo s (t + ms * 10000000)
    let s := { s with sec := { s.sec with stopAt := none } }
    if s.fbit R.FHCFG_AUTOWR && s.fget R.FHSTAT_STATE == 1 && s.fget R.FHSTAT_WRCNT < 3 then
      warmReset (s.fset R.FHSTAT_WRCNT (s.fget R.FHSTAT_WRCNT + 1))
    else s
def execAutoWarmReset (s : State) : Host.Outcome State Fault Refusal := .next (autoWarm s)

/-! ## Measurements (R760) -/

/-- A bit of every core, as 16 bytes. -/
def coreBits (f : Nat → Bool) : List Byte := leBytes 16 ((upto 128).foldl (fun n c => n + b2n (f c) * 2 ^ c) 0)
def zeros48 : List Byte := List.replicate 48 0
/-- The value of a measurement; none before it has been recorded, or for another index. Log entry 63, DEDUCED. -/
def measurement (s : State) (k : Nat) : Option (List Byte) :=
  match k with
  | 7 =>
    if s.stage < 2 then none
    else some (coreBits (fun c => s.fbit (R.CPCTL_DBGEN c)) ++ coreBits (fun c => s.fbit (R.CPCTL_DBGLOCK c)) ++
      leBytes 4 (s.rd R.TLCTL).toNat)
  | 8 => if s.stage < 2 then none else some (coreBits (fencedTest s))
  | 10 =>
    if !s.fbit R.STAGESTAT_BORDERSEEN then none
    else
      some (match s.jobD with
        | none => zeros48 ++ zeros48 ++ leBytes 8 0
        | some j => j.digest ++ s.led.mdig ++ leBytes 8 j.loadRnd.toNat)
  | 11 =>
    if !s.fbit R.STAGESTAT_BORDERSEEN then none
    else
      some (match s.jobT with
        | none => zeros48 ++ leBytes 8 0
        | some j => j.digest ++ leBytes 8 j.loadRnd.toNat)
  | k =>
    match tget [] s.sec.meas k with
    | [] => none
    | v => some v

/-! ## The management mailbox (R768, R772) -/

/-- The command and the request bytes that an instance of the mailbox holds. -/
def mbOp (s : State) : MbPath → Nat
  | .host => s.fget R.MBCMD_OP
  | .sideband => s.sec.sb.op
def mbData (s : State) : List Byte := (upto 256).flatMap fun w => leBytes 4 (s.rd (R.MBDATA w)).toNat
def mbReq (s : State) : MbPath → List Byte
  | .host => (mbData s).take (s.fget R.MBCMD_LEN)
  | .sideband => s.sec.sb.req
/-- A response in MBDATA: bytes past its end keep what they held. -/
def putMbData (s : State) (bs : List Byte) : State :=
  let l := bs ++ (mbData s).drop bs.length
  (upto (cdiv bs.length 4)).foldl (fun s w => s.wr (R.MBDATA w) (BitVec.ofNat 32 (ofLe (slice l (4 * w) 4)))) s
/-- The command ends with a status and a response. Log entry 62, DESIGN CHOICE. -/
def mbEnd (s : State) (via : MbPath) (status : Nat) (resp : List Byte) : State :=
  let s := { s with sec := { s.sec with mbq := s.sec.mbq.tail } }
  match via with
  | .host =>
    (putMbData s resp).wr R.MBSTAT
      (BitVec.ofNat 32 (2 ^ 30 + status % 256 * 65536 + resp.length % 2048))
  | .sideband => { s with sec := { s.sec with sb := { s.sec.sb with busy := false, resp := some (status, resp) } } }
/-- The status that a command is turned away with: in GRAVE (R737), a length other than one of its own, a stage not yet
reached. Log entry 62, DESIGN CHOICE. -/
def mbTurned (s : State) (op len need : Nat) (n : Nat) : Option Nat :=
  if s.grave && 3 < op then some 3
  else if n != len then some 2
  else if s.stage < need then some 4
  else none
/-- The MSP serves the oldest command, if it is this one: `f` gives status, response and state.
Log entry 62, DESIGN CHOICE. -/
def mbServe (s : State) (via : MbPath) (op len need : Nat) (f : List Byte → State → Nat × List Byte × State) :
    Host.Outcome State Fault Refusal :=
  .next (if !s.sec.base || s.sec.mbq.head? != some via || mbOp s via != op then s
    else
      match mbTurned s op len need (mbReq s via).length with
      | some st => mbEnd s via st []
      | none =>
        let r := f (mbReq s via) s
        mbEnd r.2.2 via r.1 r.2.1)

def partNumber : List Byte := [0x4A, 0x58, 0x46, 0x39, 0x2D, 0x34, 0x48, 0x38]
def execGetid (via : MbPath) (s : State) : Host.Outcome State Fault Refusal :=
  mbServe s via 1 0 1 fun _ s =>
    (0, partNumber ++ [Config.stepping 0, Config.stepping 1] ++ serialChars ++
      leBytes 4 Config.romVersion.toNat, s)
/-- A register of the security block as the MSP reads it. -/
def word4 (s : State) (off : Nat) : List Byte := leBytes 4 (readReg s .msp off).toNat
def execGetstage (via : MbPath) (s : State) : Host.Outcome State Fault Refusal :=
  mbServe s via 2 0 1 fun _ s =>
    (0, word4 s R.STAGESTAT ++ word4 s R.BOOTSTAT ++ word4 s R.RBSTAT ++ leBytes 8 s.now, s)
def execGetcap (via : MbPath) (s : State) : Host.Outcome State Fault Refusal :=
  mbServe s via 3 0 1 fun _ s => (0, word4 s R.CAPSTAT ++ [0, 1, 2, 3].flatMap fun n => word4 s (R.FENCE n), s)
/-- Log entry 62, DESIGN CHOICE. -/
def execGetmeas (via : MbPath) (s : State) : Host.Outcome State Fault Refusal :=
  mbServe s via 4 1 2 fun q s =>
    let k := imgNat q 0 1
    match measurement s k with
    | some v => (0, v, s)
    | none => (if 1 ≤ k && k ≤ 11 then 4 else 3, [], s)
def execGetcert (via : MbPath) (s : State) : Host.Outcome State Fault Refusal :=
  mbServe s via 5 5 2 fun q s =>
    if 2 < imgNat q 0 1 then (3, [], s)
    else (0, slice (tget [] s.sec.chains (imgNat q 0 1)) (imgNat q 1 4) 1000, s)
/-- R589: EPBASE, until EPCFG.LOCK. Log entry 62, DESIGN CHOICE. -/
def setEpbase (q : List Byte) (s : State) : Nat × List Byte × State :=
  if s.fbit R.EPCFG_LOCK || 4095 < imgNat q 0 2 then (3, [], s)
  else (0, [], { s.fset R.EPCFG_EPBASE (imgNat q 0 2) with epSet := true })
def execSetepbase (via : MbPath) (s : State) : Host.Outcome State Fault Refusal := mbServe s via 6 2 1 setEpbase

/-- R750: a counter takes a value; measurements 2 and 5 change. Log entry 62, DESIGN CHOICE. -/
def setCounter (s : State) (k v : Nat) : State :=
  let s := { s with sec := if k = 0 then { s.sec with fw := v } else { s.sec with kg := v } }
  let s := (s.fset R.RBSTAT_FWCNT s.sec.fw).fset R.RBSTAT_KGCNT s.sec.kg
  setMeas (setMeasFree s 2 []) 5 (counterBytes s)
/-- R750: blowing a fuse may fail, which leaves some of them blown. Log entry 62, DESIGN CHOICE. -/
def rbcommit (q : List Byte) (s : State) : Nat × List Byte × State :=
  let k := imgNat q 0 1
  let v := imgNat q 1 1
  let old := if k = 0 then s.sec.fw else s.sec.kg
  let top := s.fget (if k = 0 then R.BOOTSTAT_SVN else R.BOOTSTAT_KGEN)
  if 1 < k || s.anyJob || v ≤ old || top < v then (3, [], s)
  else
    let r := s.stageEvent 0x49 2
    if r.1 then
      let n := r.2.freeNat
      let st := n.2.freeByte
      (st.1.toNat, [], eventReport (failWith (setCounter st.2 k (old + n.1 % (v - old))) 1) .grave 0x49 0 2 .module 0)
    else (0, [BitVec.ofNat 8 v], setCounter r.2 k v)
def execRbcommit (via : MbPath) (s : State) : Host.Outcome State Fault Refusal := mbServe s via 7 2 3 rbcommit

/-- R759, R768: the response is sent, and the reset begins. -/
def execWarmrst (via : MbPath) (s : State) : Host.Outcome State Fault Refusal :=
  .next (if !s.sec.base || s.sec.mbq.head? != some via || mbOp s via != 8 then s
    else
      match mbTurned s 8 0 1 (mbReq s via).length with
      | some st => mbEnd s via st []
      | none => warmReset (mbEnd s via 0 []))

end Sys2Proof.Machine
end

