-- ==== Sys2Proof/Machine/Spdm.lean ====
section
/-! DEFINITION. Sys2Proof/Machine/Spdm.lean: attestation over SPDM 1.3 (R762 to R767). Message layouts, transcripts and the form
of signatures are those of SPDM 1.3, which the spec names; nonces are unspecified bytes. -/

namespace Sys2Proof.Machine

/-- R763: the DOE mailbox answers from the completion of Siding; a Grave fault leaves only the Base functions (R794). -/
def spdmUp (s : State) : Bool := s.stage == 3 && !s.grave

def setSpdm (s : State) (d : Spdm) : State := { s with sec := { s.sec with spdm := d } }
def reqByte (q : List Byte) (k : Nat) : Nat := (q.getD k 0).toNat
/-- A message: SPDM version, code, two parameters, body. Log entry 71, PRESUMED. -/
def message (code p1 p2 : Nat) (body : List Byte) : List Byte :=
  [0x13, BitVec.ofNat 8 code, BitVec.ofNat 8 p1, BitVec.ofNat 8 p2] ++ body
/-- ERROR: 0x03 Busy, 0x04 UnexpectedRequest, 0x07 UnsupportedRequest, 0x0F LargeResponse, 0x01 InvalidRequest,
0x42 ResponseNotReady. Log entry 71, PRESUMED. -/
def errorMsg (code data : Nat) (ext : List Byte) : List Byte := message 0x7F code data ext

/-! ## Responses. Each gives the response and the state after it -/

/-- Log entry 71, PRESUMED. -/
def versionResp (s : State) : List Byte × State :=
  ([0x10, 0x04, 0, 0, 0, 1] ++ leBytes 2 0x1300, s)
/-- R762: CERT_CAP, CHAL_CAP, MEAS_CAP with signature, MEAS_FRESH_CAP, CHUNK_CAP. -/
def capFlags : Nat := 2 + 4 + 0x10 + 0x20 + 0x20000
/-- Log entry 71, PRESUMED. -/
def capabilitiesResp (q : List Byte) (s : State) : List Byte × State :=
  let r := s.freeBytes 12
  let s := setSpdm r.2 { r.2.sec.spdm with xfer := imgNat q 12 4 }
  (message 0x61 0 0 (r.1.take 4 ++ leBytes 4 capFlags ++ r.1.drop 4), s)
/-- R762: DMTF measurements, TPM_ALG_SHA_384, TPM_ALG_RSAPSS_3072. Log entry 71, PRESUMED. -/
def algorithmsResp (s : State) : List Byte × State :=
  (message 0x63 0 0 (leBytes 2 36 ++ [1, 0] ++ leBytes 4 4 ++ leBytes 4 8 ++ leBytes 4 2 ++ List.replicate 16 0), s)
def chainOf (s : State) (slot : Nat) : List Byte := tget [] s.sec.chains slot
/-- Log entry 71, PRESUMED. -/
def digestsResp (s : State) : List Byte × State :=
  (message 0x01 7 7 ([0, 1, 2].flatMap fun k => sha384 (chainOf s k)), s)
/-- Log entry 71, PRESUMED. -/
def certificateResp (q : List Byte) (s : State) : List Byte × State :=
  let slot := reqByte q 2 % 16
  let c := chainOf s slot
  let o := imgNat q 4 2
  if 2 < slot || c.length < o then (errorMsg 1 0 [], s)
  else
    let p := slice c o (imgNat q 6 2)
    (message 0x02 slot 0 (leBytes 2 p.length ++ leBytes 2 (c.length - o - p.length) ++ p), s)
/-- What SPDM 1.3 has signed for a signing hash: its prefix four times, zeros, the context, the hash.
Log entry 71, PRESUMED. -/
def signedText (ctx : String) (h : List Byte) : List Byte :=
  let c := asciiBytes ctx
  (upto 4).flatMap (fun _ => asciiBytes "dmtf-spdm-v1.3.*") ++ List.replicate (36 - c.length) 0 ++ c ++ h
/-- R764, R765: the response m is signed over the hash of the messages that SPDM 1.3 has it cover and of itself; the hash is
kept for the companion. Log entry 74, DESIGN CHOICE. -/
def signedResp (ctx : String) (covered m : List Byte) (s : State) : List Byte × State :=
  let h := sha384 (covered ++ m)
  let sig := deviceSign 0 (signedText ctx h) s
  (m ++ sig.1, setSpdm sig.2 { sig.2.sec.spdm with signed := some h, asked := false, ready := false })
/-- R760: a DMTF measurement block: its index, and the value as a digest or as one raw bit stream. The type's other bits are
0. Log entry 63, DEDUCED. -/
def measBlock (s : State) (k : Nat) : List Byte :=
  match measurement s k with
  | none => []
  | some v =>
    [BitVec.ofNat 8 k, 1] ++ leBytes 2 (v.length + 3) ++ [if [2, 4, 6].contains k then 0x00 else 0x80] ++ leBytes 2 v.length ++ v
/-- R760, SPDM 1.3: the hash over every measurement block that is recorded; all of them are of the trusted computing base.
Log entry 71, PRESUMED. -/
def summaryHash (s : State) : List Byte := sha384 ((upto 11).flatMap fun k => measBlock s (k + 1))
/-- SPDM 1.3: the 8 bytes of a request from an offset, which the response repeats before its signature. -/
def requesterContext (q : List Byte) (o : Nat) : List Byte := fitBytes 8 (q.drop o)
/-- CHALLENGE: param2 asks for no summary of the measurements, 1 for that of the trusted computing base, 0xFF for that of all.
Log entry 71, PRESUMED. -/
def challengeResp (q : List Byte) (s : State) : List Byte × State :=
  let slot := reqByte q 2 % 16
  let d := s.sec.spdm
  let kind := reqByte q 3
  if 2 < slot || !(kind == 0 || kind == 1 || kind == 0xFF) then (errorMsg 1 0 [], s)
  else
    let n := s.freeBytes 32
    signedResp "responder-challenge_auth signing" (d.vca ++ d.certs ++ q)
      (message 0x03 slot 7 (sha384 (chainOf s slot) ++ n.1 ++ (if kind = 0 then [] else summaryHash s) ++ leBytes 2 0 ++
        requesterContext q 36)) n.2

/-- GET_MEASUREMENTS: param2 0 asks for the number of blocks, 0xFF for all, another index for one.
Log entry 71, PRESUMED. -/
def measurementsResp (q : List Byte) (s : State) : List Byte × State :=
  let op := reqByte q 3
  let d := s.sec.spdm
  let ks := if op = 0 then [] else if op = 0xFF then (upto 11).map (· + 1) else [op]
  let blocks := ks.map (measBlock s)
  let record := blocks.flatten
  if !s.fbit R.STAGESTAT_BORDERSEEN then (errorMsg 3 0 [], s)
  else if op != 0 && op != 0xFF && record.isEmpty then (errorMsg 1 0 [], s)
  else
    let n := s.freeBytes 32
    let m := message 0x60 (if op = 0 then 11 else 0) 0
      ([BitVec.ofNat 8 blocks.length] ++ leBytes 3 record.length ++ record ++ n.1 ++ leBytes 2 0 ++
        requesterContext q (if reqByte q 2 % 2 = 1 then 37 else 4))
    if reqByte q 2 % 2 = 1 then signedResp "responder-measurements signing" (d.vca ++ d.meas ++ q) m n.2 else (m, n.2)

/-- R765: StandardID 3, Acdom's vendor ID, the payload 0x01. Log entry 74, DESIGN CHOICE. -/
def companionAsked (q : List Byte) : Bool :=
  imgNat q 4 2 == 3 && imgNat q 6 1 == 2 && imgNat q 7 2 == Config.vendor.toNat && imgNat q 9 2 == 1 && imgNat q 11 1 == 1
/-- R765 to R767: the companion of the signed response that came just before. Log entry 74, DESIGN CHOICE. -/
def companionResp (q : List Byte) (s : State) : List Byte × State :=
  let d := s.sec.spdm
  if !companionAsked q then (errorMsg 7 0xFE [], setSpdm s { d with signed := none, meas := [] })
  else
    match d.signed with
    | none => (errorMsg 4 0 [], s)
    | some h =>
      if !d.ready then
        (errorMsg 0x42 0 [0, 0xFE, BitVec.ofNat 8 d.handle, 0], setSpdm s { d with asked := true, meas := [] })
      else
        let r := deviceSign 1 h s
        let body := [0x01] ++ h ++ r.1
        (message 0x7E 0 0 (leBytes 2 3 ++ [2] ++ leBytes 2 Config.vendor.toNat ++ leBytes 2 body.length ++ body),
         setSpdm r.2 { d with signed := none, asked := false, ready := false, meas := [] })

/-! ## The DOE mailbox -/

/-- A response goes out; one longer than the requester's DataTransferSize is held for CHUNK_GET.
Log entry 74, DESIGN CHOICE. -/
def send (r : List Byte × State) : State :=
  let d := r.2.sec.spdm
  if d.xfer != 0 && d.xfer < r.1.length then
    (setSpdm r.2 { d with chunkOut := r.1, handle := (d.handle + 1) % 256 }).emit
      (.spdm (errorMsg 0x0F 0 [BitVec.ofNat 8 (d.handle + 1)]))
  else r.2.emit (.spdm r.1)
/-- A request other than one for the companion ends what that could follow (R766), one other than for measurements what those
not signed would add (R764). Log entry 74, DESIGN CHOICE. -/
def fresh (code : Nat) (s : State) : State :=
  let d := s.sec.spdm
  setSpdm s { d with signed := none, asked := false, ready := false, meas := if code = 0xE0 then d.meas else [] }
/-- R764: what an exchange adds to the messages that a signature covers; one that ends in ERROR adds nothing.
Log entry 71, PRESUMED. -/
def exchanged (code : Nat) (q r : List Byte) (d : Spdm) : Spdm :=
  if reqByte r 1 = 0x7F then d
  else
    match code with
    | 0x84 => { d with vca := q ++ r, certs := [], meas := [] }
    | 0xE1 | 0xE3 => { d with vca := d.vca ++ q ++ r }
    | 0x81 | 0x82 => { d with certs := d.certs ++ q ++ r }
    | 0x83 => { d with certs := [] }
    | 0xE0 => { d with certs := [], meas := if reqByte q 2 % 2 = 1 then [] else d.meas ++ q ++ r }
    | _ => d
/-- The answer to a request, with what the exchange adds. -/
def answered (code : Nat) (q : List Byte) (f : State → List Byte × State) (s : State) : List Byte × State :=
  let r := f (fresh code s)
  (r.1, setSpdm r.2 (exchanged code q r.1 r.2.sec.spdm))
/-- The response to a request by its code, apart from chunking. Log entry 71, PRESUMED. -/
def answer (q : List Byte) (s : State) : List Byte × State :=
  match reqByte q 1 with
  | 0x84 => answered 0x84 q versionResp s
  | 0xE1 => answered 0xE1 q (capabilitiesResp q) s
  | 0xE3 => answered 0xE3 q algorithmsResp s
  | 0x81 => answered 0x81 q digestsResp s
  | 0x82 => answered 0x82 q (certificateResp q) s
  | 0x83 => answered 0x83 q (challengeResp q) s
  | 0xE0 => answered 0xE0 q (measurementsResp q) s
  | 0xFE => companionResp q s
  | c => answered c q (fun s => (errorMsg 7 c [], s)) s
/-- Log entry 71, PRESUMED. -/
def spdm (s : State) (code : Nat) (q : List Byte) (f : State → List Byte × State) : Host.Outcome State Fault Refusal :=
  .next (if spdmUp s then send (answered code q f s) else s)

def execGetVersion (data : List Byte) (s : State) : Host.Outcome State Fault Refusal := spdm s 0x84 data versionResp
def execGetCapabilities (data : List Byte) (s : State) : Host.Outcome State Fault Refusal :=
  spdm s 0xE1 data (capabilitiesResp data)
def execNegotiateAlgorithms (data : List Byte) (s : State) : Host.Outcome State Fault Refusal :=
  spdm s 0xE3 data algorithmsResp
def execGetDigests (data : List Byte) (s : State) : Host.Outcome State Fault Refusal := spdm s 0x81 data digestsResp
def execGetCertificate (data : List Byte) (s : State) : Host.Outcome State Fault Refusal :=
  spdm s 0x82 data (certificateResp data)
def execChallenge (data : List Byte) (s : State) : Host.Outcome State Fault Refusal := spdm s 0x83 data (challengeResp data)
/-- R763: ERROR Busy before Siding is complete too, as soon as configuration space answers. -/
def execGetMeasurements (data : List Byte) (s : State) : Host.Outcome State Fault Refusal :=
  if s.sec.base && !s.grave && !spdmUp s then .next (s.emit (.spdm (errorMsg 3 0 [])))
  else spdm s 0xE0 data (measurementsResp data)
def execVendorDefinedRequest (data : List Byte) (s : State) : Host.Outcome State Fault Refusal :=
  .next (if spdmUp s then send (companionResp data s) else s)
def execSpdmUnsupported (data : List Byte) (s : State) : Host.Outcome State Fault Refusal :=
  spdm s (reqByte data 1) data fun s => (errorMsg 7 (reqByte data 1) [], s)
/-- R766: the companion that has been asked for is signed. -/
def execCompanionSignatureReady (s : State) : Host.Outcome State Fault Refusal :=
  .next (if s.sec.spdm.asked then setSpdm s { s.sec.spdm with ready := true } else s)

/-- CHUNK_SEND: chunks in order build a large request; with the last comes the response to it.
Log entry 74, DESIGN CHOICE. -/
def chunkTake (q : List Byte) (s : State) : List Byte × State :=
  let d := s.sec.spdm
  let seq := imgNat q 4 2
  let size := imgNat q 8 4
  let body := slice q (if seq = 0 then 16 else 12) size
  let req := if seq = 0 then body else d.chunkIn ++ body
  let ack (s : State) (r : List Byte) : List Byte × State := (message 0x05 0 (reqByte q 3) (leBytes 2 seq ++ r), s)
  if seq != 0 && seq != d.inNext then (errorMsg 1 0 [], setSpdm s { d with chunkIn := [], inNext := 0 })
  else if reqByte q 2 % 2 = 1 then
    let s := setSpdm s { d with chunkIn := [], inNext := 0 }
    let r := answer req s
    ack r.2 r.1
  else ack (setSpdm s { d with chunkIn := req, inNext := seq + 1 }) []
def execChunkSend (data : List Byte) (s : State) : Host.Outcome State Fault Refusal :=
  .next (if spdmUp s then send (chunkTake data s) else s)
/-- CHUNK_GET: a piece of the large response, as long as the transfer size leaves room for.
Log entry 74, DESIGN CHOICE. -/
def chunkGive (q : List Byte) (s : State) : List Byte × State :=
  let d := s.sec.spdm
  let seq := imgNat q 4 2
  let first := d.xfer - 16
  let rest := d.xfer - 12
  let o := if seq = 0 then 0 else first + (seq - 1) * rest
  let p := slice d.chunkOut o (if seq = 0 then first else rest)
  let last := decide (d.chunkOut.length ≤ o + p.length)
  if d.chunkOut.isEmpty || p.isEmpty || reqByte q 3 != d.handle then (errorMsg 1 0 [], s)
  else
    (message 0x06 (b2n last) d.handle (leBytes 2 seq ++ [0, 0] ++ leBytes 4 p.length ++
      (if seq = 0 then leBytes 4 d.chunkOut.length else []) ++ p),
     if last then setSpdm s { d with chunkOut := [] } else s)
def execChunkGet (data : List Byte) (s : State) : Host.Outcome State Fault Refusal :=
  .next (if spdmUp s then (chunkGive data s).2.emit (.spdm (chunkGive data s).1) else s)

end Sys2Proof.Machine
end

