-- ==== Sys2Proof/Machine/Sideband.lean ====
section
/-! DEFINITION. Sys2Proof/Machine/Sideband.lean: sideband management over I3C or SMBus (R853 to R856): addressing, framing, the
mailbox, and registers of blocks 8 to 10. A frame is the whole write transfer: address byte, FT, LEN, payload, PEC. -/

namespace Sys2Proof.Machine

/-- One bit of the CRC-8 of x⁸ + x² + x + 1. -/
def crc8Bit (r : Nat) : Nat := if 128 ≤ r then (r * 2 % 256) ^^^ 7 else r * 2
def crc8Byte (r : Nat) (b : Byte) : Nat :=
  crc8Bit (crc8Bit (crc8Bit (crc8Bit (crc8Bit (crc8Bit (crc8Bit (crc8Bit (r ^^^ b.toNat))))))))
/-- R854: PEC over bytes, from 0. -/
def pec (bs : List Byte) : Nat := bs.foldl crc8Byte 0

/-- R853: the static address. -/
def staticAddr : Nat := 0x68 + Config.straps.toNat
/-- R853: the one address at which the sideband answers. -/
def sbAddr (s : State) : Nat := s.sec.sb.dyn.getD staticAddr
def setSb (s : State) (b : Sideband) : State := { s with sec := { s.sec with sb := b } }
/-- A request is answered: the response waits to be read. Log entry 75, DEDUCED. -/
def sbRespond (s : State) (status : Nat) (data : List Byte) : State :=
  setSb s { s.sec.sb with busy := false, resp := some (status, data) }

/-- What a write transfer carries, once it is for the sideband, no request is in progress and its PEC holds: its payload, or
the state that it leaves instead (R854, R856). Log entry 75, DEDUCED. -/
def frameOf (s : State) (f : List Byte) : State ⊕ List Byte :=
  if !s.sec.base || s.sec.sb.busy || reqByte f 0 != sbAddr s * 2 then .inl s
  else if f.length < 5 || pec f.dropLast != reqByte f (f.length - 1) then .inl (sbRespond s 0xFD [])
  else if imgNat f 2 2 != f.length - 5 then .inl (sbRespond s 2 [])
  else .inr (slice f 4 (f.length - 5))
/-- R854: FT 0x01: a command for the sideband's instance of the mailbox. -/
def sbCommand (s : State) (p : List Byte) : State :=
  if p.isEmpty || 1025 < p.length then sbRespond s 2 []
  else
    let op := reqByte p 0
    if 1 ≤ op && op ≤ 8 then
      { s with sec := { s.sec with
        mbq := s.sec.mbq ++ [.sideband], sb := { s.sec.sb with op := op, req := p.tail, busy := true, resp := none } } }
    else sbRespond s (if s.grave then 3 else 1) []

/-- R855: the offset lies in blocks 8, 9 or 10. -/
def sbReach (off : Nat) : Bool := match locate off with | some p => 8 ≤ p.num && p.num ≤ 10 | none => false
/-- R854: FT 0x02: a register is read. -/
def sbReadReg (s : State) (p : List Byte) : State :=
  let off := imgNat p 0 4
  if p.length != 4 then sbRespond s 2 []
  else if !sbReach off then sbRespond s 3 []
  else sbRespond s 0 (leBytes 4 (readReg s .msp (off / 4 * 4)).toNat)

/-- The strobes of blocks 8 to 10 in a word written to a register, after its fields: what each row of the command table for
them does. Log entry 75, DEDUCED. -/
def strobes (s : State) (off v : Nat) : State :=
  let s := if off = R.FHCTL && bitOf v 0 then clearCounts s else s
  let s := if off = R.FHCONT then clearCont (BitVec.ofNat 32 v) s else s
  let s := if off = R.FHFNC && bitOf v 29 then fenceNamed s else s
  let s := [0, 1, 2, 3].foldl (fun s k => if off = R.FHFIRST k && bitOf v 31 then clearCapture k s else s) s
  if off = R.FLCTL && bitsOf v 30 2 = 1 then flashStart (bitsOf v 0 27) (fun _ => none) s
  else if off = R.FLCTL && bitsOf v 30 2 = 2 then flashStart (bitsOf v 0 27) (fun s => some (flbuf s)) s
  else s
/-- R702, R855: the MSP writes a register. Log entry 75, DEDUCED. -/
def mspWrite (s : State) (off v : Nat) : State :=
  match accessEnds s .msp off true (some false) with
  | some s' => s'
  | none => strobes (registerWrite s .msp off (BitVec.ofNat 32 v) 15) off v
/-- R854: FT 0x03: a register is written. -/
def sbWriteReg (s : State) (p : List Byte) : State :=
  let off := imgNat p 0 4
  if p.length != 8 then sbRespond s 2 []
  else if !sbReach off then sbRespond s 3 []
  else sbRespond (mspWrite s (off / 4 * 4) (imgNat p 4 4)) 0 []

/-- R854: a write transfer: what its frame type, byte 1, asks for. Log entry 75, DEDUCED. -/
def sbFrame (s : State) (f : List Byte) : State :=
  match frameOf s f with
  | .inl s' => s'
  | .inr p =>
    match reqByte f 1 with
    | 1 => sbCommand s p
    | 2 => sbReadReg s p
    | 3 => sbWriteReg s p
    | _ => sbRespond s 1 []
def execSbMailboxFrame (data : List Byte) (s : State) : Host.Outcome State Fault Refusal := .next (sbFrame s data)
def execSbRegisterRead (data : List Byte) (s : State) : Host.Outcome State Fault Refusal := .next (sbFrame s data)
def execSbRegisterWrite (data : List Byte) (s : State) : Host.Outcome State Fault Refusal := .next (sbFrame s data)
def execSbReservedFrame (data : List Byte) (s : State) : Host.Outcome State Fault Refusal := .next (sbFrame s data)

/-- A read transfer: STATUS, RLEN, the payload and PEC over the address byte and all of them. -/
def sbTransfer (s : State) (status : Nat) (data : List Byte) : List Byte :=
  let bs := [BitVec.ofNat 8 status] ++ leBytes 2 data.length ++ data
  bs ++ [BitVec.ofNat 8 (pec (BitVec.ofNat 8 (sbAddr s * 2 + 1) :: bs))]
/-- R856: a read at the sideband's address. -/
def sbRead (s : State) : State :=
  let b := s.sec.sb
  if !s.sec.base then s
  else if b.busy then { s with reply := .data (sbTransfer s 0xFE []) }
  else
    match b.resp with
    | none => { s with reply := .data (sbTransfer s 0xFC []) }
    | some r => { setSb s { b with resp := none } with reply := .data (sbTransfer s r.1 r.2) }
/-- Log entry 75, DEDUCED. -/
def execSbResponseRead (s : State) : Host.Outcome State Fault Refusal := .next (sbRead s)

/-- R853: SETDASA, sent to the static address, gives a dynamic address of 7 bits. -/
def execSetdasa (addr : Nat) (s : State) : Host.Outcome State Fault Refusal :=
  .next (if !s.sec.base || s.sec.sb.dyn.isSome || 127 < addr then s else setSb s { s.sec.sb with dyn := some addr })
def execRstdaa (s : State) : Host.Outcome State Fault Refusal :=
  .next (if s.sec.base then setSb s { s.sec.sb with dyn := none } else s)

end Sys2Proof.Machine
end

