-- ==== Sys2Proof/Machine/Dispatch.lean ====
section
/-! DEFINITION. Sys2Proof/Machine/Dispatch.lean: the meaning of each command, one arm for each. -/

namespace Sys2Proof.Machine

def exec (i : Instr) (s : State) : Host.Outcome State Fault Refusal :=
  match i with
  | .roundBoundary => Sys2Proof.Machine.execRoundBoundary s
  | .roundInEdge dt => Sys2Proof.Machine.execRoundInEdge dt s
  | .missedEdge => Sys2Proof.Machine.execMissedEdge s
  | .roundOutPulse => Sys2Proof.Machine.execRoundOutPulse s
  | .windowBoundary => Sys2Proof.Machine.execWindowBoundary s
  | .switchComplete core => Sys2Proof.Machine.execSwitchComplete core s
  | .flowRealignT die => Sys2Proof.Machine.execFlowRealignT die s
  | .instructionOverTime core unit finished => Sys2Proof.Machine.execInstructionOverTime core unit finished s
  | .roundsStart req => Sys2Proof.Machine.execRoundsStart req s
  | .roundsStop req => Sys2Proof.Machine.execRoundsStop req s
  | .rndctlClrcnt req => Sys2Proof.Machine.execRndctlClrcnt req s
  | .dovrRelease req => Sys2Proof.Machine.execDovrRelease req s
  | .weave core eng => Sys2Proof.Machine.execWeave core eng s
  | .unload core eng => Sys2Proof.Machine.execUnload core eng s
  | .instructionRetire core unit => Sys2Proof.Machine.execInstructionRetire core unit s
  | .rampdownStart core eng => Sys2Proof.Machine.execRampdownStart core eng s
  | .rampStep core eng => Sys2Proof.Machine.execRampStep core eng s
  | .wvctlEnable req core eng on => Sys2Proof.Machine.execWvctlEnable req core eng on s
  | .wvctlAbort req core eng => Sys2Proof.Machine.execWvctlAbort req core eng s
  | .wvctlClrcnt req core eng => Sys2Proof.Machine.execWvctlClrcnt req core eng s
  | .wvcfgLock req core eng => Sys2Proof.Machine.execWvcfgLock req core eng s
  | .wvdbgdatRead req core col => Sys2Proof.Machine.execWvdbgdatRead req core col s
  | .vMov core => Sys2Proof.Machine.execVMov core s
  | .vAdd core => Sys2Proof.Machine.execVAdd core s
  | .vSub core => Sys2Proof.Machine.execVSub core s
  | .vMul core => Sys2Proof.Machine.execVMul core s
  | .vFma core => Sys2Proof.Machine.execVFma core s
  | .vMin core => Sys2Proof.Machine.execVMin core s
  | .vMax core => Sys2Proof.Machine.execVMax core s
  | .vAbs core => Sys2Proof.Machine.execVAbs core s
  | .vNeg core => Sys2Proof.Machine.execVNeg core s
  | .vCmpeq core => Sys2Proof.Machine.execVCmpeq core s
  | .vCmpne core => Sys2Proof.Machine.execVCmpne core s
  | .vCmplt core => Sys2Proof.Machine.execVCmplt core s
  | .vCmple core => Sys2Proof.Machine.execVCmple core s
  | .vSel core => Sys2Proof.Machine.execVSel core s
  | .vRcp core => Sys2Proof.Machine.execVRcp core s
  | .vRsqrt core => Sys2Proof.Machine.execVRsqrt core s
  | .vCurve core => Sys2Proof.Machine.execVCurve core s
  | .vCgrad core => Sys2Proof.Machine.execVCgrad core s
  | .vDrop core => Sys2Proof.Machine.execVDrop core s
  | .vCvt core => Sys2Proof.Machine.execVCvt core s
  | .vSum core => Sys2Proof.Machine.execVSum core s
  | .vMaxr core => Sys2Proof.Machine.execVMaxr core s
  | .vMinr core => Sys2Proof.Machine.execVMinr core s
  | .vSumsq core => Sys2Proof.Machine.execVSumsq core s
  | .vMoments core => Sys2Proof.Machine.execVMoments core s
  | .vMcomb core => Sys2Proof.Machine.execVMcomb core s
  | .vTopk core => Sys2Proof.Machine.execVTopk core s
  | .vCrvld core => Sys2Proof.Machine.execVCrvld core s
  | .vRseed core => Sys2Proof.Machine.execVRseed core s
  | .vRsave core => Sys2Proof.Machine.execVRsave core s
  | .vRload core => Sys2Proof.Machine.execVRload core s
  | .vuctlEnable req core on => Sys2Proof.Machine.execVuctlEnable req core on s
  | .vuctlAbort req core => Sys2Proof.Machine.execVuctlAbort req core s
  | .vuctlClrcnt req core => Sys2Proof.Machine.execVuctlClrcnt req core s
  | .hartInstruction core ctx => Sys2Proof.Machine.execHartInstruction core ctx s
  | .ecall core ctx => Sys2Proof.Machine.execEcall core ctx s
  | .ebreak core ctx => Sys2Proof.Machine.execEbreak core ctx s
  | .wfi core ctx => Sys2Proof.Machine.execWfi core ctx s
  | .wfiWake core ctx => Sys2Proof.Machine.execWfiWake core ctx s
  | .qpush core ctx q rs1 rs2 => Sys2Proof.Machine.execQpush core ctx q rs1 rs2 s
  | .qpushResume core ctx => Sys2Proof.Machine.execQpushResume core ctx s
  | .qpushnb core ctx rd q rs1 rs2 => Sys2Proof.Machine.execQpushnb core ctx rd q rs1 rs2 s
  | .qcred core ctx rd q => Sys2Proof.Machine.execQcred core ctx rd q s
  | .cpop core ctx rd => Sys2Proof.Machine.execCpop core ctx rd s
  | .mpop core ctx rd rs1 => Sys2Proof.Machine.execMpop core ctx rd rs1 s
  | .xflagRead core ctx rd => Sys2Proof.Machine.execXflagRead core ctx rd s
  | .xflagClear core ctx rd rs1 => Sys2Proof.Machine.execXflagClear core ctx rd rs1 s
  | .xfence core ctx mask => Sys2Proof.Machine.execXfence core ctx mask s
  | .xfenceRelease core ctx => Sys2Proof.Machine.execXfenceRelease core ctx s
  | .scrd core ctx rd rs1 => Sys2Proof.Machine.execScrd core ctx rd rs1 s
  | .scadd core ctx rs1 rs2 => Sys2Proof.Machine.execScadd core ctx rs1 rs2 s
  | .scset core ctx rs1 rs2 => Sys2Proof.Machine.execScset core ctx rs1 rs2 s
  | .scwait core ctx rd rs1 rs2 => Sys2Proof.Machine.execScwait core ctx rd rs1 rs2 s
  | .scwaitRelease core ctx => Sys2Proof.Machine.execScwaitRelease core ctx s
  | .xbar core ctx rs1 rs2 => Sys2Proof.Machine.execXbar core ctx rs1 rs2 s
  | .fastBarrierRelease cluster slot => Sys2Proof.Machine.execFastBarrierRelease cluster slot s
  | .cpctlEnable req core on => Sys2Proof.Machine.execCpctlEnable req core on s
  | .cpctlHalt req core ctx => Sys2Proof.Machine.execCpctlHalt req core ctx s
  | .cpctlResume req core ctx => Sys2Proof.Machine.execCpctlResume req core ctx s
  | .cpctlStep req core ctx => Sys2Proof.Machine.execCpctlStep req core ctx s
  | .cpctlAbort req core ctx => Sys2Proof.Machine.execCpctlAbort req core ctx s
  | .cpctlClrcnt req core => Sys2Proof.Machine.execCpctlClrcnt req core s
  | .cpctlDbglock req core => Sys2Proof.Machine.execCpctlDbglock req core s
  | .snop core => Sys2Proof.Machine.execSnop core s
  | .sadd core => Sys2Proof.Machine.execSadd core s
  | .sset core => Sys2Proof.Machine.execSset core s
  | .sbar core => Sys2Proof.Machine.execSbar core s
  | .cnop core => Sys2Proof.Machine.execCnop core s
  | .wend core => Sys2Proof.Machine.execWend core s
  | .cdrain core => Sys2Proof.Machine.execCdrain core s
  | .movet core => Sys2Proof.Machine.execMovet core s
  | .mover core => Sys2Proof.Machine.execMover core s
  | .wstore core => Sys2Proof.Machine.execWstore core s
  | .wmsg core => Sys2Proof.Machine.execWmsg core s
  | .dmago core => Sys2Proof.Machine.execDmago core s
  | .cictlClrcnt req core => Sys2Proof.Machine.execCictlClrcnt req core s
  | .waitTimeout core ctx waiter => Sys2Proof.Machine.execWaitTimeout core ctx waiter s
  | .jlctlGo req => Sys2Proof.Machine.execJlctlGo req s
  | .loadDone => Sys2Proof.Machine.execLoadDone s
  | .jlctlUnload req => Sys2Proof.Machine.execJlctlUnload req s
  | .unloadDrained => Sys2Proof.Machine.execUnloadDrained s
  | .scctlRelease req region ctx => Sys2Proof.Machine.execScctlRelease req region ctx s
  | .scctlFlush req region => Sys2Proof.Machine.execScctlFlush req region s
  | .scctlClrcnt req region => Sys2Proof.Machine.execScctlClrcnt req region s
  | .memctlClrcnt req => Sys2Proof.Machine.execMemctlClrcnt req s
  | .cacheFillComplete region line => Sys2Proof.Machine.execCacheFillComplete region line s
  | .scrubPatrol die addr found => Sys2Proof.Machine.execScrubPatrol die addr found s
  | .scrubRewrite die => Sys2Proof.Machine.execScrubRewrite die s
  | .cxlLinkFailure port => Sys2Proof.Machine.execCxlLinkFailure port s
  | .bar2Read off len => Sys2Proof.Machine.execBar2Read off len s
  | .bar2Write off data => Sys2Proof.Machine.execBar2Write off data s
  | .withyMessageDelivery => Sys2Proof.Machine.execWithyMessageDelivery s
  | .withyStoreDelivery => Sys2Proof.Machine.execWithyStoreDelivery s
  | .withyErrorReturn => Sys2Proof.Machine.execWithyErrorReturn s
  | .scntvalWrite req ctr val => Sys2Proof.Machine.execScntvalWrite req ctr val s
  | .snctlClrcnt req die => Sys2Proof.Machine.execSnctlClrcnt req die s
  | .mqctlClrcnt req core => Sys2Proof.Machine.execMqctlClrcnt req core s
  | .dmactlGo req ch => Sys2Proof.Machine.execDmactlGo req ch s
  | .dmactlAbort req ch => Sys2Proof.Machine.execDmactlAbort req ch s
  | .dmactlEnable req ch on => Sys2Proof.Machine.execDmactlEnable req ch on s
  | .dmactlClrcnt req ch => Sys2Proof.Machine.execDmactlClrcnt req ch s
  | .dmaListStart ch => Sys2Proof.Machine.execDmaListStart ch s
  | .dmaEntryFetch ch => Sys2Proof.Machine.execDmaEntryFetch ch s
  | .dmaBurst ch => Sys2Proof.Machine.execDmaBurst ch s
  | .dmaWriteComplete ch => Sys2Proof.Machine.execDmaWriteComplete ch s
  | .lotteryDecision port reqs => Sys2Proof.Machine.execLotteryDecision port reqs s
  | .burstBoundary port sched waiting => Sys2Proof.Machine.execBurstBoundary port sched waiting s
  | .backoffExpiry port input => Sys2Proof.Machine.execBackoffExpiry port input s
  | .arbseedWrite req port val => Sys2Proof.Machine.execArbseedWrite req port val s
  | .arbcfgClrcnt req port => Sys2Proof.Machine.execArbcfgClrcnt req port s
  | .wyctlClrcnt req core => Sys2Proof.Machine.execWyctlClrcnt req core s
  | .stepTrigger => Sys2Proof.Machine.execStepTrigger s
  | .stepCommit => Sys2Proof.Machine.execStepCommit s
  | .voteTimeout => Sys2Proof.Machine.execVoteTimeout s
  | .stepctlEnable req on => Sys2Proof.Machine.execStepctlEnable req on s
  | .stepctlClrcnt req => Sys2Proof.Machine.execStepctlClrcnt req s
  | .batchComplete => Sys2Proof.Machine.execBatchComplete s
  | .recordDelivery => Sys2Proof.Machine.execRecordDelivery s
  | .idigComplete => Sys2Proof.Machine.execIdigComplete s
  | .sealWrite => Sys2Proof.Machine.execSealWrite s
  | .headSigning => Sys2Proof.Machine.execHeadSigning s
  | .signedEntryWrite => Sys2Proof.Machine.execSignedEntryWrite s
  | .ledctlSignow req => Sys2Proof.Machine.execLedctlSignow req s
  | .ledctlResume req => Sys2Proof.Machine.execLedctlResume req s
  | .ledctlEnable req on => Sys2Proof.Machine.execLedctlEnable req on s
  | .ledctlClrcnt req => Sys2Proof.Machine.execLedctlClrcnt req s
  | .linkFlit port flit => Sys2Proof.Machine.execLinkFlit port flit s
  | .writeFlit port flit => Sys2Proof.Machine.execWriteFlit port flit s
  | .readFlit port flit => Sys2Proof.Machine.execReadFlit port flit s
  | .rdataFlit port flit => Sys2Proof.Machine.execRdataFlit port flit s
  | .msgFlit port flit => Sys2Proof.Machine.execMsgFlit port flit s
  | .ctrFlit port flit => Sys2Proof.Machine.execCtrFlit port flit s
  | .ackFlit port flit => Sys2Proof.Machine.execAckFlit port flit s
  | .errFlit port flit => Sys2Proof.Machine.execErrFlit port flit s
  | .mcwriteFlit port flit => Sys2Proof.Machine.execMcwriteFlit port flit s
  | .redFlit port flit => Sys2Proof.Machine.execRedFlit port flit s
  | .mgmtFlit port flit => Sys2Proof.Machine.execMgmtFlit port flit s
  | .nakRepeat port => Sys2Proof.Machine.execNakRepeat port s
  | .replayRelease port => Sys2Proof.Machine.execReplayRelease port s
  | .remoteTimeout => Sys2Proof.Machine.execRemoteTimeout s
  | .trainingFrame port frame => Sys2Proof.Machine.execTrainingFrame port frame s
  | .trainingLimitExpiry port => Sys2Proof.Machine.execTrainingLimitExpiry port s
  | .codewordLockLoss port => Sys2Proof.Machine.execCodewordLockLoss port s
  | .epochHoldRelease => Sys2Proof.Machine.execEpochHoldRelease s
  | .rtctlArm req => Sys2Proof.Machine.execRtctlArm req s
  | .rtctlClrcnt req => Sys2Proof.Machine.execRtctlClrcnt req s
  | .rtdataAccess req write => Sys2Proof.Machine.execRtdataAccess req write s
  | .epcfgLock req => Sys2Proof.Machine.execEpcfgLock req s
  | .lnkctlRetrain req port => Sys2Proof.Machine.execLnkctlRetrain req port s
  | .lnkctlEnable req port on => Sys2Proof.Machine.execLnkctlEnable req port on s
  | .lnkctlClrcnt req port => Sys2Proof.Machine.execLnkctlClrcnt req port s
  | .localSendStart grp => Sys2Proof.Machine.execLocalSendStart grp s
  | .localSendSent => Sys2Proof.Machine.execLocalSendSent s
  | .reductionCutoff iod grp => Sys2Proof.Machine.execReductionCutoff iod grp s
  | .rootClose iod grp => Sys2Proof.Machine.execRootClose iod grp s
  | .returnClose grp => Sys2Proof.Machine.execReturnClose grp s
  | .returnStale ent => Sys2Proof.Machine.execReturnStale ent s
  | .colctlEnable req on => Sys2Proof.Machine.execColctlEnable req on s
  | .colctlAbort req => Sys2Proof.Machine.execColctlAbort req s
  | .colctlClrcnt req => Sys2Proof.Machine.execColctlClrcnt req s
  | .grpdataAccess req word write => Sys2Proof.Machine.execGrpdataAccess req word write s
  | .idlctlClear req core ctx => Sys2Proof.Machine.execIdlctlClear req core ctx s
  | .idleCounterWrap core ctx k => Sys2Proof.Machine.execIdleCounterWrap core ctx k s
  | .configRequest r => Sys2Proof.Machine.execConfigRequest r s
  | .bar4MessageWrite core q words => Sys2Proof.Machine.execBar4MessageWrite core q words s
  | .counterDoorbell ctr val => Sys2Proof.Machine.execCounterDoorbell ctr val s
  | .bar4BadWrite off data => Sys2Proof.Machine.execBar4BadWrite off data s
  | .msixUnmask vec => Sys2Proof.Machine.execMsixUnmask vec s
  | .registerWrite req off val be => Sys2Proof.Machine.execRegisterWrite req off val be s
  | .registerAccessTimeout req off write => Sys2Proof.Machine.execRegisterAccessTimeout req off write s
  | .mailboxRead req off sel => Sys2Proof.Machine.execMailboxRead req off sel s
  | .mailboxWrite req off sel => Sys2Proof.Machine.execMailboxWrite req off sel s
  | .mailboxTimeout req off => Sys2Proof.Machine.execMailboxTimeout req off s
  | .updstbFire req mask => Sys2Proof.Machine.execUpdstbFire req mask s
  | .updstbArm req mask => Sys2Proof.Machine.execUpdstbArm req mask s
  | .regctlClrcnt req => Sys2Proof.Machine.execRegctlClrcnt req s
  | .functionLevelReset => Sys2Proof.Machine.execFunctionLevelReset s
  | .perstAssert => Sys2Proof.Machine.execPerstAssert s
  | .auxGood => Sys2Proof.Machine.execAuxGood s
  | .auxLoss => Sys2Proof.Machine.execAuxLoss s
  | .input54vGood => Sys2Proof.Machine.execInput54vGood s
  | .input54vLoss => Sys2Proof.Machine.execInput54vLoss s
  | .siding => Sys2Proof.Machine.execSiding s
  | .stageBoundExpiry => Sys2Proof.Machine.execStageBoundExpiry s
  | .pllLockTimeout pll => Sys2Proof.Machine.execPllLockTimeout pll s
  | .getid via => Sys2Proof.Machine.execGetid via s
  | .getstage via => Sys2Proof.Machine.execGetstage via s
  | .getcap via => Sys2Proof.Machine.execGetcap via s
  | .getmeas via => Sys2Proof.Machine.execGetmeas via s
  | .getcert via => Sys2Proof.Machine.execGetcert via s
  | .setepbase via => Sys2Proof.Machine.execSetepbase via s
  | .rbcommit via => Sys2Proof.Machine.execRbcommit via s
  | .warmrst via => Sys2Proof.Machine.execWarmrst via s
  | .getVersion data => Sys2Proof.Machine.execGetVersion data s
  | .getCapabilities data => Sys2Proof.Machine.execGetCapabilities data s
  | .negotiateAlgorithms data => Sys2Proof.Machine.execNegotiateAlgorithms data s
  | .getDigests data => Sys2Proof.Machine.execGetDigests data s
  | .getCertificate data => Sys2Proof.Machine.execGetCertificate data s
  | .challenge data => Sys2Proof.Machine.execChallenge data s
  | .getMeasurements data => Sys2Proof.Machine.execGetMeasurements data s
  | .vendorDefinedRequest data => Sys2Proof.Machine.execVendorDefinedRequest data s
  | .chunkSend data => Sys2Proof.Machine.execChunkSend data s
  | .chunkGet data => Sys2Proof.Machine.execChunkGet data s
  | .spdmUnsupported data => Sys2Proof.Machine.execSpdmUnsupported data s
  | .companionSignatureReady => Sys2Proof.Machine.execCompanionSignatureReady s
  | .flashErase req addr => Sys2Proof.Machine.execFlashErase req addr s
  | .flashProgram req addr => Sys2Proof.Machine.execFlashProgram req addr s
  | .flashOpComplete ok => Sys2Proof.Machine.execFlashOpComplete ok s
  | .faultReport => Sys2Proof.Machine.execFaultReport s
  | .collectorSilent coll => Sys2Proof.Machine.execCollectorSilent coll s
  | .autoWarmReset => Sys2Proof.Machine.execAutoWarmReset s
  | .drainTimeout kind idx => Sys2Proof.Machine.execDrainTimeout kind idx s
  | .reclaim kind idx => Sys2Proof.Machine.execReclaim kind idx s
  | .reclaimTimeout kind idx => Sys2Proof.Machine.execReclaimTimeout kind idx s
  | .fhfncGo req kind idx => Sys2Proof.Machine.execFhfncGo req kind idx s
  | .fhctlClrcnt req => Sys2Proof.Machine.execFhctlClrcnt req s
  | .fhfirstClear req k => Sys2Proof.Machine.execFhfirstClear req k s
  | .fhcontClear req mask => Sys2Proof.Machine.execFhcontClear req mask s
  | .lockTamper kind unit => Sys2Proof.Machine.execLockTamper kind unit s
  | .tlctlOpen req on => Sys2Proof.Machine.execTlctlOpen req on s
  | .tlctlLock req => Sys2Proof.Machine.execTlctlLock req s
  | .injctlArm req slot => Sys2Proof.Machine.execInjctlArm req slot s
  | .injctlDisarm req slot => Sys2Proof.Machine.execInjctlDisarm req slot s
  | .powerSample watts => Sys2Proof.Machine.execPowerSample watts s
  | .powerCapInterval => Sys2Proof.Machine.execPowerCapInterval s
  | .vfRiseStep die => Sys2Proof.Machine.execVfRiseStep die s
  | .brakeEngage => Sys2Proof.Machine.execBrakeEngage s
  | .brakeRelease => Sys2Proof.Machine.execBrakeRelease s
  | .brakeHoldExpiry => Sys2Proof.Machine.execBrakeHoldExpiry s
  | .thermalSample sensors => Sys2Proof.Machine.execThermalSample sensors s
  | .thermalTrip sensor => Sys2Proof.Machine.execThermalTrip sensor s
  | .railFault rail cause => Sys2Proof.Machine.execRailFault rail cause s
  | .clockLoss clk => Sys2Proof.Machine.execClockLoss clk s
  | .linkRefClockDetect => Sys2Proof.Machine.execLinkRefClockDetect s
  | .sbMailboxFrame data => Sys2Proof.Machine.execSbMailboxFrame data s
  | .sbRegisterRead data => Sys2Proof.Machine.execSbRegisterRead data s
  | .sbRegisterWrite data => Sys2Proof.Machine.execSbRegisterWrite data s
  | .sbReservedFrame data => Sys2Proof.Machine.execSbReservedFrame data s
  | .sbResponseRead => Sys2Proof.Machine.execSbResponseRead s
  | .setdasa addr => Sys2Proof.Machine.execSetdasa addr s
  | .rstdaa => Sys2Proof.Machine.execRstdaa s
  | .input54vNearLimit => Sys2Proof.Machine.execInput54vNearLimit s
  | .linkRefClockReturn => Sys2Proof.Machine.execLinkRefClockReturn s
  | .flitBoundary port => Sys2Proof.Machine.execFlitBoundary port s
  | .cxlLinkUp port gen width capg => Sys2Proof.Machine.execCxlLinkUp port gen width capg s
  | .hostLinkUp gen width flit => Sys2Proof.Machine.execHostLinkUp gen width flit s
  | .perstDeassert => Sys2Proof.Machine.execPerstDeassert s
  | .coreTestRequest core => Sys2Proof.Machine.execCoreTestRequest core s

end Sys2Proof.Machine
end

