-- ==== Sys2Proof/Safety.lean ====
section
/-! DEFINITION. Sys2Proof/Safety.lean: what a sound state is and what a step keeps, in the terms that claims use. -/

namespace Sys2Proof.Machine

/-- Memory is in its canonical form, and the fused counters count at most 127 fuses (R749). -/
def State.sound (s : State) : Prop := Memory.wf s.mem = true ∧ s.sec.fw ≤ 127 ∧ s.sec.kg ≤ 127

/-- What no command undoes: the canonical form of memory, and the fuses blown (R749). -/
def State.grew (s t : State) : Prop :=
  (Memory.wf s.mem = true → Memory.wf t.mem = true) ∧ s.sec.fw ≤ t.sec.fw ∧ s.sec.kg ≤ t.sec.kg

/-- A requester's access reaches the register at an offset, and no injected error ends it (R705, R706). -/
def State.reaches (s : State) (req : Req) (off : Nat) : Prop := (accessEnds s req off true (some false)).isNone = true

/-- No injection slot is armed (R805). -/
def State.unarmed (s : State) : Prop := ∀ n, n < 16 → s.fbit (R.INJSTAT_ARMED n) = false

/-- `t` is `s` but for the registers at these offsets. -/
def State.regsBut (s t : State) (offs : List Nat) : Prop :=
  { t with regs := s.regs } = s ∧ ∀ o, o ∉ offs → t.rd o = s.rd o

/-- `t` is `s` with these registers at 0. -/
def State.zeroed (s t : State) (offs : List Nat) : Prop := s.regsBut t offs ∧ ∀ o, o ∈ offs → t.rd o = 0

/-- The hart of a context takes an instruction (R259, R289): enabled, running, not stalled, no stop in force. -/
def State.takes (s : State) (c : Nat) (x : Ctx) : Prop := hartGo s c x = true

/-- `t` is `s` but for one core. -/
def State.coreOnly (s t : State) (c : Nat) : Prop :=
  { t with cores := s.cores } = s ∧ ∀ c', c' ≠ c → t.core c' = s.core c'

/-- `t` is `s` but for one hart of one core, its context's queues, completion queue and waiters there. -/
def State.hartOnly (s t : State) (c : Nat) (x : Ctx) : Prop :=
  s.coreOnly t c ∧
  t.core c = (s.core c).setCtx x
    { s.cc c x with
      pc := (t.cc c x).pc, xs := (t.cc c x).xs, instret := (t.cc c x).instret, stall := (t.cc c x).stall
      waits := (t.cc c x).waits, queues := (t.cc c x).queues, nextSeq := (t.cc c x).nextSeq, cq := (t.cc c x).cq }

/-- The hart's instruction has retired in sequence with the value `v` for register `rd`; x0 reads 0 (R264). -/
def State.wrote (s t : State) (c : Nat) (x : Ctx) (rd : Nat) (v : W64) : Prop :=
  (∀ n, t.xreg c x n = if n = 0 then 0 else if n = rd then v else s.xreg c x n) ∧
  (t.cc c x).pc = (s.cc c x).pc + 4 ∧ (t.cc c x).instret = (s.cc c x).instret + 1 ∧ (t.cc c x).stall = .none

/-- The queues and the completion queue of a context on a core are as they were. -/
def State.queuesKept (s t : State) (c : Nat) (x : Ctx) : Prop :=
  (t.cc c x).queues = (s.cc c x).queues ∧ (t.cc c x).nextSeq = (s.cc c x).nextSeq ∧ (t.cc c x).cq = (s.cc c x).cq

/-- The hart has stalled in a blocking instruction: nothing has retired, and its wait begins from 0 (R259, R450, R451). -/
def State.stalls (s t : State) (c : Nat) (x : Ctx) (st : Stall) : Prop :=
  s.hartOnly t c x ∧ s.queuesKept t c x ∧ (t.cc c x).stall = st ∧ (t.cc c x).pc = (s.cc c x).pc ∧
  (t.cc c x).xs = (s.cc c x).xs ∧ (t.cc c x).instret = (s.cc c x).instret ∧
  tget ⟨0, 0⟩ (t.cc c x).waits 6 = ⟨0, waitLimit s c x⟩

/-- The hart's instruction has retired with a value for `rd`, and nothing else has changed but the end of its wait. -/
def State.results (s t : State) (c : Nat) (x : Ctx) (rd : Nat) (v : W64) : Prop :=
  s.hartOnly t c x ∧ s.queuesKept t c x ∧ s.wrote t c x rd v

/-- A word has been pushed to a queue, behind the entries it held. -/
def State.pushed (s t : State) (c : Nat) (x : Ctx) (q : Nat) (w : W128) : Prop :=
  t.queue c x q = s.queue c x q ++ [⟨w, (s.cc c x).nextSeq, false⟩] ∧
  (∀ q', q' ≠ q → t.queue c x q' = s.queue c x q') ∧ (t.cc c x).cq = (s.cc c x).cq

/-! ## Flits -/

/-- A flit as it arrives: its header and its 240 payload bytes. -/
def flitOf (n : Nat) (i : FlitIn) : Flit := ⟨i.hdr, fitBytes 240 i.payload, some n⟩
/-- R592, R593, R618: an ACTIVE port takes the flit's header as good: no uncorrectable codeword, CRC, no reserved
encoding. After a Grave fault no port takes flits (R794). -/
def State.goodFlit (s : State) (n : Nat) (i : FlitIn) : Prop :=
  portActive s n = true ∧ s.grave = false ∧ i.unc = false ∧ i.uncw = 0 ∧ crc16 i.hdr = hf i.hdr 0 16 ∧ flitOk (flitOf n i) = true
/-- R600, R618, R788: the flit is the next in order, its buffer has room, and traffic of its type is on. -/
def State.admits (s : State) (n : Nat) (i : FlitIn) : Prop :=
  s.goodFlit n i ∧ (flitOf n i).lseq = (s.port n).expect ∧
  tget 0 (s.port n).rx (flitOf n i).vc < bufDepth (flitOf n i).vc ∧ (trafficOn s = true ∨ (flitOf n i).typ = 10)
/-- R631: the port has counted the codewords that it corrected under a flit. -/
def State.corrected (s : State) (n : Nat) (i : FlitIn) : State := s.bumpBy (R.FECCOR n) i.cor
/-- R600, R631: a flit that its port takes is in the buffer of its channel. -/
def State.buffered (s : State) (n : Nat) (i : FlitIn) : State := bufferIn (s.corrected n i) n (flitOf n i).vc
/-- R607, R608: flits for an endpoint leave an I/O die by an ACTIVE port of its own that they may use, with no failover in
force. -/
def State.routedTo (s : State) (iod ep p : Nat) : Prop :=
  let e := routeEntry s iod (curTbl s) ep
  ownBlock s ep = false ∧ bitOf e 15 = true ∧ bitsOf e 10 5 < 12 ∧ p = iod * 12 + bitsOf e 10 5 ∧ portOpen s p = true ∧
  s.fbit (R.LNKSTAT_FAILOVER p) = false
/-- The bytes from a device address on are these, and every other byte is as it was. -/
def State.stored (s t : State) (a : Nat) (bs : List Byte) : Prop :=
  (∀ k, k < bs.length → t.ld (a + k) 1 = [bs.getD k 0]) ∧ ∀ b, b < a ∨ a + bs.length ≤ b → t.ld b 1 = s.ld b 1

/-! ## Command instructions at the head of a queue -/

/-- A row of a command class: its command on a core, the queue it issues from, and what it checks. -/
structure IssueRow where
  cmd : Instr
  q : Nat
  cls : Nat
  op : Nat
  slots : W128 → List Nat
  resv : W128 → Nat
  hold : State → Ctx → W128 → Bool
  checks : State → Iss → List (Nat × Bool)

/-- An element operation of the vector unit. -/
def vecRow (cmd : Instr) (op : Nat) (sh : VShape) (more : State → Iss → List (Nat × Bool)) : IssueRow :=
  ⟨cmd, 2, 2, op, vSlots, vResv, noHold, fun s i => vElemChecks sh s i ++ more s i⟩
/-- Another operation of the vector unit. -/
def vecRow' (cmd : Instr) (op : Nat) (checks : State → Iss → List (Nat × Bool)) : IssueRow :=
  ⟨cmd, 2, 2, op, vSlots, vResv, noHold, checks⟩
/-- The rows of the Weave, Move and Transfer classes on a core. -/
def moverRows (c : CoreId) (e : EngId) : List IssueRow :=
  [ ⟨.weave c e, e, 0, 0, weaveSlots, weaveResv, noHold, weaveChecks⟩,
    ⟨.unload c e, e, 1, 0, unloadSlots, unloadResv, noHold, unloadChecks⟩,
    ⟨.movet c, 3, 3, 0, moveSlots, moveResv, noHold, moveChecks⟩,
    ⟨.mover c, 3, 3, 1, moveSlots, moveResv, noHold, moveChecks⟩,
    ⟨.wstore c, 4, 4, 0, transferSlots, transferResv, noHold, transferChecks⟩,
    ⟨.wmsg c, 4, 4, 1, transferSlots, transferResv, noHold, transferChecks⟩,
    ⟨.dmago c, 4, 4, 2, transferSlots, transferResv, dmagoHold, transferChecks⟩ ]
/-- The rows of the element operations. -/
def elementRows (c : CoreId) : List IssueRow :=
  [ vecRow (.vMov c) 0x00 (shA [0, 1, 2]) noChecks, vecRow (.vAdd c) 0x01 (shAB [0, 1, 2]) noChecks,
    vecRow (.vSub c) 0x02 (shAB [0, 1, 2]) noChecks, vecRow (.vMul c) 0x03 (shAB [0, 1, 2]) noChecks,
    vecRow (.vFma c) 0x04 { need := [1, 1, 1, 1, 0], widths := [0, 1] } noChecks,
    vecRow (.vMin c) 0x05 (shAB [0, 1, 2]) noChecks, vecRow (.vMax c) 0x06 (shAB [0, 1, 2]) noChecks,
    vecRow (.vAbs c) 0x07 (shA [0, 1, 2]) noChecks, vecRow (.vNeg c) 0x08 (shA [0, 1, 2]) noChecks,
    vecRow (.vCmpeq c) 0x09 shCmp noChecks, vecRow (.vCmpne c) 0x0A shCmp noChecks,
    vecRow (.vCmplt c) 0x0B shCmp noChecks, vecRow (.vCmple c) 0x0C shCmp noChecks,
    vecRow (.vSel c) 0x0D { need := [1, 1, 1, 1, 0], widths := [0, 1, 2], regD := true } noChecks,
    vecRow (.vRcp c) 0x0E (shA [0]) noChecks, vecRow (.vRsqrt c) 0x0F (shA [0]) noChecks,
    vecRow (.vCurve c) 0x10 (shA [0]) fun s i => [(0x36, wf i.w 4 5 == 0 || curveBad s i.c i.x (wf i.w 4 5))],
    vecRow (.vCgrad c) 0x11 (shAB [0]) fun s i => [(0x36, cgradBad s i)],
    vecRow (.vDrop c) 0x12 { need := [1, 0, 0, 1, 2], widths := [0, 1, 2] } fun _ i =>
      [(0x22, i.ldOk && decide (65536 ≤ i.l.imm1))],
    vecRow (.vCvt c) 0x14 (shA [0]) noChecks ]
/-- The rows of the reductions, of TOPK and of the table and generator instructions. -/
def reduceRows (c : CoreId) : List IssueRow :=
  [ vecRow' (.vSum c) 0x18 (redChecks shRed), vecRow' (.vMaxr c) 0x19 (redChecks shRed),
    vecRow' (.vMinr c) 0x1A (redChecks shRed), vecRow' (.vSumsq c) 0x1B (redChecks shRed),
    vecRow' (.vMoments c) 0x1C momChecks, vecRow' (.vMcomb c) 0x1D mcombChecks, vecRow' (.vTopk c) 0x20 topkChecks,
    vecRow' (.vCrvld c) 0x28 fun s i => rawChecks 0 3136 s i ++ [(0x36, !slotOwn s i.c i.x (wf i.w 4 5))],
    vecRow' (.vRseed c) 0x29 (rawChecks 0 8), vecRow' (.vRsave c) 0x2A (rawChecks 3 5120),
    vecRow' (.vRload c) 0x2B (rawChecks 0 5120) ]
/-- The rows of the Sync and Control classes. -/
def syncRows (c : CoreId) : List IssueRow :=
  [ ⟨.snop c, 5, 5, 0, noSlots, syncResv, noHold, syncChecks⟩, ⟨.sadd c, 5, 5, 1, noSlots, syncResv, noHold, syncChecks⟩,
    ⟨.sset c, 5, 5, 2, noSlots, syncResv, noHold, syncChecks⟩, ⟨.sbar c, 5, 5, 3, noSlots, syncResv, noHold, syncChecks⟩,
    ⟨.cnop c, 5, 6, 0, noSlots, syncResv, noHold, syncChecks⟩, ⟨.wend c, 5, 6, 1, noSlots, syncResv, noHold, syncChecks⟩,
    ⟨.cdrain c, 5, 6, 2, noSlots, syncResv, noHold, syncChecks⟩ ]

/-- The instruction at issue, with its latched descriptors. -/
def IssueRow.iss (r : IssueRow) (s : State) (c : Nat) (x : Ctx) (e : QEntry) : Iss := mkIss s c r.q x e (r.slots e.word)
/-- The checks of R363, in any order. -/
def IssueRow.allChecks (r : IssueRow) (s : State) (c : Nat) (x : Ctx) (e : QEntry) : List (Nat × Bool) :=
  commonChecks s (r.iss s c x e) (r.resv e.word) ++ r.checks s (r.iss s c x e)

/-- R359: the entry at the head of the issuing context's queue is one of the row's, and may issue. -/
def State.atHead (s : State) (c : Nat) (r : IssueRow) (x : Ctx) (e : QEntry) : Prop :=
  s.owner = some x ∧ (s.queue c x r.q).head? = some e ∧ classOf e.word = r.cls ∧ opOf e.word = r.op ∧
  mayIssue s c x = true ∧ unitOn s c r.q = true ∧ busy s c r.q = false ∧
  (wenOf e.word = true → ownsCtr s x (wctrOf e.word) = true)
/-- R307, R349, R223, R239: its wait holds and nothing else holds it. -/
def State.released (s : State) (c : Nat) (r : IssueRow) (x : Ctx) (e : QEntry) : Prop :=
  (wenOf e.word = true → (s.ctr (wctrOf e.word)).met (wthrOf e.word) = true) ∧
  Sys2Proof.Machine.held s c x e.word = false ∧
  r.hold s x e.word = false

/-- The entry has left its queue for its unit; nothing of what it works on has changed. -/
def State.launched (s t : State) (c : Nat) (q : Nat) (x : Ctx) (e : QEntry) : Prop :=
  t.queue c x q = (s.queue c x q).tail ∧ (∀ q', q' ≠ q → t.queue c x q' = s.queue c x q') ∧
  (∃ i, inflightAt t c q = some i ∧ i.word = e.word ∧ i.seq = e.seq ∧ i.ctx = x) ∧
  (∀ q', q' ≠ q → inflightAt t c q' = inflightAt s c q') ∧ t.mem = s.mem ∧ t.ctrs = s.ctrs ∧
  (t.core c).mats = (s.core c).mats ∧ (t.core c).vregs = (s.core c).vregs ∧ (t.core c).curves = (s.core c).curves ∧
  (t.cc c x).rng = (s.cc c x).rng ∧ (t.cc c x).cq = (s.cc c x).cq ∧ ∀ c', c' ≠ c → t.core c' = s.core c'

end Sys2Proof.Machine
end

