-- ==== Sys2Proof/Certificates/Slice0/Obligations.lean ====
section
/-! DEFINITION. Sys2Proof/Certificates/Slice0/Obligations.lean: the statements about the machine that are to be proved. -/

open Sys2Proof Sys2Proof.Machine
open Host (Outcome)

/-- A step runs the command at the front of the queue on the state with the queue's rest (95_what_each_step_holds.md). -/
def Obligations.StepTakesFrontCommand : Prop :=
  ∀ (c : Instr) (rest : List Instr) (s : State), s.pending = c :: rest → step s = exec c { s with pending := rest }

/-- An idle step is one cycle of the link reference clock, 6.4 ns: the model's choice, log entry 1 (R45, R186, R831).
Rests on log entry 1, the model's reading or choice. -/
def Obligations.IdleStepIsOneLinkClockCycle : Prop :=
  ∀ s : State, s.pending = [] →
    (s.clk.present = false → step s = .next s) ∧
    (s.clk.present = true → ∃ t, step s = .next t ∧ t.clk.tenths = s.clk.tenths + 64 ∧ t.clk.base = s.clk.base ∧
      t.mem = s.mem ∧ t.poison = s.poison ∧ t.ctrs = s.ctrs ∧ t.round = s.round ∧ t.pending = [] ∧
      ∀ o, (∀ c : CoreId, o ≠ R.IDLWRAP c) →
        (o ∉ s.cores.flatMap fun k => [R.WVSTAT k.1 0, R.WVSTAT k.1 1, R.WVDUMCNT k.1 0, R.WVDUMCNT k.1 1]) →
        t.rd o = s.rd o)

/-- Every command answers a next state in every state: no command of the table faults or is refused
(95_what_each_step_holds.md). Rests on log entry 2, the model's reading or choice. -/
def Obligations.EveryCommandIsAnswered : Prop :=
  (∀ (c : Instr) (s : State), ∃ t, exec c s = .next t) ∧ ∀ s : State, ∃ t, step s = .next t

/-- Every step keeps the canonical form of memory and never lowers a fused counter (R749, R398, R368). -/
def Obligations.EveryStepKeepsMemoryFormAndFuses : Prop :=
  ∀ s t : State, step s = .next t → s.grew t

/-- The state after power-on reset meets the invariant (R725, R749). Rests on log entries 4, 5, the model's reading or
choice. -/
def Obligations.ResetIsSound : Prop :=
  State.reset.sound

/-- Power-on reset: registers at their reset values, no job, Rounds STOPPED, memory lost (R725, R700, R46, R47, R734).
Rests on log entry 4, the model's reading or choice. -/
def Obligations.PowerOnReset : Prop :=
  (∀ o, State.reset.rd o = resetWord o) ∧ (∀ o, regSpec o = none → State.reset.rd o = 0) ∧
  State.reset.fget R.RNDPER_PERIOD = 1000 ∧ State.reset.fget R.RNDSYNC_MISSLIM = 8 ∧
  State.reset.fget R.RNDSYNC_GUARD = 1000 ∧ State.reset.fget R.RNDSTAT_STATE = 0 ∧
  State.reset.loaded .d = false ∧ State.reset.loaded .t = false ∧ State.reset.round.num = 0 ∧
  State.reset.now = 0 ∧ State.reset.mem = [] ∧ State.reset.stage = 0 ∧ State.reset.pending = []

/-- Writing a field of a register leaves that value in it and every other bit and register as it was (R13, R699). Rests on
log entries 9, 10, the model's reading or choice. -/
def Obligations.FieldWriteReadsBack : Prop :=
  ∀ (s : State) (f g : Fld) (v : Nat), f.lo + f.w ≤ 32 →
    (s.fset f v).fget f = v % 2 ^ f.w ∧
    (g.off ≠ f.off ∨ g.lo + g.w ≤ f.lo ∨ f.lo + f.w ≤ g.lo → (s.fset f v).fget g = s.fget g) ∧
    s.regsBut (s.fset f v) [f.off]

/-- CLRCNT of every block that has the strobe: exactly the block's counters read 0 (R249, R252, R299, R367, R459, R96,
R410, R504, R541, R577, R729, R813). Rests on log entry 21, the model's reading or choice. -/
def Obligations.ClearCountersOfEveryBlock : Prop :=
  ∀ (req : Req) (c : CoreId) (e : EngId) (d : DieId) (r : RegionId) (ch : ChanId) (p : ArbId) (l : PortId) (s : State),
    (s.reaches req (R.WVCTL c e) → ∃ t, exec (.wvctlClrcnt req c e) s = .next t ∧
      s.zeroed t [R.WVDISC c e, R.WVDUMCNT c e, R.WVRUPCNT c e]) ∧
    (s.reaches req (R.VUCTL c) → ∃ t, exec (.vuctlClrcnt req c) s = .next t ∧ s.zeroed t [R.VUDISC c, R.VUCRVBAD c]) ∧
    (s.reaches req (R.CPCTL c) → ∃ t, exec (.cpctlClrcnt req c) s = .next t ∧ s.zeroed t [R.CQOVFD c, R.CQOVFT c]) ∧
    (s.reaches req (R.CICTL c) → ∃ t, exec (.cictlClrcnt req c) s = .next t ∧
      s.zeroed t [R.DESCWRD c, R.DESCWRT c, R.WENDXD c, R.WENDXT c]) ∧
    (s.reaches req (R.SNCTL d) → ∃ t, exec (.snctlClrcnt req d) s = .next t ∧
      s.zeroed t [R.SNUNDER d, R.SNOVER d, R.SNSAT d, R.SNBARERR d, R.SNTOCNT d, R.SNORPH d]) ∧
    (s.reaches req (R.MQCTL c) → ∃ t, exec (.mqctlClrcnt req c) s = .next t ∧
      s.zeroed t [R.MQDROPD c, R.MQDROPT c, R.MQDROPN c, R.MQPOIS c, R.MQCORR c]) ∧
    (s.reaches req R.RNDCTL → ∃ t, exec (.rndctlClrcnt req) s = .next t ∧
      s.zeroed t [R.DOVCNT, R.TOVCNT, R.SWLCNT, R.MISSCNT, R.STRAYCNT, R.WDOGCNT]) ∧
    (s.reaches req (R.SCCTL r) → ∃ t, exec (.scctlClrcnt req r) s = .next t ∧
      s.zeroed t [R.SCHIT r, R.SCMISS r, R.SCMERGE r, R.SCRETFULL r]) ∧
    (s.reaches req R.MEMCTL → ∃ t, exec (.memctlClrcnt req) s = .next t ∧
      s.zeroed t [R.MEMCOR 0, R.MEMCOR 1, R.MEMCOR 2, R.MEMCOR 3, R.MEMUNC 0, R.MEMUNC 1, R.MEMUNC 2, R.MEMUNC 3,
                  R.INWREF]) ∧
    (s.reaches req (R.DMACTL ch) → ∃ t, exec (.dmactlClrcnt req ch) s = .next t ∧
      s.zeroed t [R.DMADISC ch, R.DMAERRC ch]) ∧
    (s.reaches req (R.ARBCFG p) → ∃ t, exec (.arbcfgClrcnt req p) s = .next t ∧
      s.zeroed t [R.ARBGRANT p, R.ARBWASTE p, R.ARBREVOKE p]) ∧
    (s.reaches req (R.WYCTL c) → ∃ t, exec (.wyctlClrcnt req c) s = .next t ∧ s.zeroed t [R.WYERRD c, R.WYERRT c]) ∧
    (s.reaches req R.FHCTL → ∃ t, exec (.fhctlClrcnt req) s = .next t ∧
      s.zeroed t ([0, 1, 2, 3, 4, 5].flatMap fun c => [0, 1, 2, 3, 4].map fun k => R.FHCNT c k)) ∧
    (s.reaches req R.STEPCTL → ∃ t, exec (.stepctlClrcnt req) s = .next t ∧
      s.zeroed t [R.STSKIPNF, R.STSKIPVS, R.LSFLOOR, R.NFSTRAY, R.SSWMIS]) ∧
    (s.reaches req R.LEDCTL → ∃ t, exec (.ledctlClrcnt req) s = .next t ∧
      s.zeroed t [R.LEDREC, R.LEDLATE, R.LEDSPILL, R.LEDDEFER, R.LEDFORCE, R.LEDSIGCNT, R.LEDSIGSKIP]) ∧
    (s.reaches req R.RTCTL → ∃ t, exec (.rtctlClrcnt req) s = .next t ∧
      s.zeroed t [R.RTMISS, R.RTDOWN, R.EPSTALE, R.BADFLIT, R.RSPLATE, R.SVIOLM]) ∧
    (s.reaches req (R.LNKCTL l) → ∃ t, exec (.lnkctlClrcnt req l) s = .next t ∧
      s.zeroed t [R.FECCOR l, R.FECUNC l, R.HDRCRC l, R.REPLAY l, R.FCDROP l, R.SVIOL l, R.TRNFAIL l]) ∧
    (s.reaches req R.COLCTL → ∃ t, exec (.colctlClrcnt req) s = .next t ∧
      s.zeroed t [R.REDMISS, R.REDLATE, R.REDLATEC, R.REDEARLY, R.REDDUP, R.REDSLOTW, R.REDSHORT, R.REDEMPTY, R.RETDONE,
                  R.RETSTALE, R.COLDISC]) ∧
    (s.reaches req R.REGCTL → ∃ t, exec (.regctlClrcnt req) s = .next t ∧ s.zeroed t [R.REGTO, R.REGERRC, R.LOCKREF])

/-- A halt stops the hart and its context's issue, keeps queues and work in flight, records its reason (R284). -/
def Obligations.HaltStopsHartAndIssue : Prop :=
  ∀ (s : State) (c : CoreId) (x : Ctx) (code src addr : Nat) (word : W128), code < 256 → src < 8 →
    let t := haltState s c x code src addr word
    let off := match x with | .d => R.CPHALTD c | .t => R.CPHALTT c
    (t.cc c x).hst = (if (s.cc c x).hst = .notLoaded then .notLoaded else .halted) ∧ (t.cc c x).issueHalt = true ∧
    (t.cc c x).pc = (s.cc c x).pc ∧ (t.cc c x).instret = (s.cc c x).instret ∧ (∀ q, t.queue c x q = s.queue c x q) ∧
    (t.core c).infl = (s.core c).infl ∧ (t.cc c x).haltPc = (s.cc c x).pc ∧
    (t.cc c x).haltAddr = BitVec.ofNat 64 addr ∧ (t.cc c x).haltCmd = word ∧
    t.rd off = BitVec.ofNat 32 (code * 2 ^ 24 + src * 2 ^ 21 + (if 1 ≤ src ∧ src ≤ 6 then tagOf word else 0)) ∧
    (∀ o, o ≠ off → t.rd o = s.rd o) ∧ t.cc c (other x) = s.cc c (other x) ∧
    (∀ c', c' ≠ c.val → t.core c' = s.core c') ∧ t.mem = s.mem ∧ t.ctrs = s.ctrs ∧ t.reports = s.reports

/-- ECALL halts with code 0x0A and a Notice; EBREAK halts with 0x0B, silent in debug mode, else Contained (R285). Rests on
log entry 18, the model's reading or choice. -/
def Obligations.EcallAndEbreakHalt : Prop :=
  ∀ (c : CoreId) (x : Ctx) (s : State), s.takes c x → s.unarmed →
    exec (.ecall c x) s =
      .next ((haltState s c x 0x0A 0 0 0).report .notice 0x08 c 0x0A (ctxParty x) 0 0) ∧
    (s.fbit (R.CPCTL_DBGEN c) = true → exec (.ebreak c x) s = .next (haltState s c x 0x0B 0 0 0)) ∧
    (s.fbit (R.CPCTL_DBGEN c) = false → exec (.ebreak c x) s =
      .next ((haltState s c x 0x0B 0 0 0).report .contained 0x08 c 0x0B (ctxParty x) 0 0))

/-- QCRED, SCRD, CPOP, MPOP and XFLAG retire with their result in rd, x0 discarding it (R268, R269, R271, R272, R423). -/
def Obligations.XweaveResults : Prop :=
  ∀ (c : CoreId) (x : Ctx) (rd rs1 : XReg) (q : Fin 8) (s : State),
    s.takes c x → (s.cc c x).stepping = false → s.unarmed →
    (q.val < 6 → ∃ t, exec (.qcred c x rd q) s = .next t ∧
      s.results t c x rd (BitVec.ofNat 64 (creditsOf s c x q - (s.queue c x q).length))) ∧
    (ownsCtr s x (low14 (s.xreg c x rs1)) = true → ∃ t, exec (.scrd c x rd rs1) s = .next t ∧
      s.results t c x rd ((s.ctr (low14 (s.xreg c x rs1))).read.setWidth 64)) ∧
    (∃ t, exec (.xflagRead c x rd) s = .next t ∧ s.results t c x rd ((s.rd (flagReg c x)).setWidth 64)) ∧
    (∃ t, exec (.xflagClear c x rd rs1) s = .next t ∧
      (s.wr (flagReg c x) (s.rd (flagReg c x) &&& ~~~(s.xreg c x rs1 &&& 0xFF).setWidth 32)).results t c x rd
        ((s.rd (flagReg c x)).setWidth 64)) ∧
    (∃ t, exec (.cpop c x rd) s = .next t ∧ s.hartOnly t c x ∧ s.wrote t c x rd ((s.cc c x).cq.headD 0) ∧
      (t.cc c x).cq = (s.cc c x).cq.tail ∧ (t.cc c x).queues = (s.cc c x).queues) ∧
    (∀ k, mqPhys s c x ((s.xreg c x rs1).toNat % 16) = some k → ∃ t, exec (.mpop c x rd rs1) s = .next t ∧
      s.coreOnly t c ∧ s.wrote t c x rd ((s.mq c k).headD 0) ∧ s.queuesKept t c x ∧
      t.mq c k = (s.mq c k).tail ∧ (∀ k', k' ≠ k → t.mq c k' = s.mq c k') ∧
      t.cc c (other x) = s.cc c (other x) ∧ (t.core c).infl = (s.core c).infl)

/-- QPUSH and QPUSHNB queue a word and take a credit; without one QPUSH stalls and QPUSHNB writes 0 (R279). -/
def Obligations.QueuePushes : Prop :=
  ∀ (c : CoreId) (x : Ctx) (rd rs1 rs2 : XReg) (q : Fin 8) (s : State), (s.cc c x).stepping = false → q.val < 6 →
    let w := wordOf (s.xreg c x rs1) (s.xreg c x rs2)
    (s.takes c x → s.unarmed → classFits w q = true → 0 < freeCredits s c x q →
      (∃ t, exec (.qpush c x q rs1 rs2) s = .next t ∧ s.hartOnly t c x ∧ s.pushed t c x q w ∧ s.wrote t c x 0 0 ∧
        freeCredits t c x q + 1 = freeCredits s c x q) ∧
      (∃ t, exec (.qpushnb c x rd q rs1 rs2) s = .next t ∧ s.hartOnly t c x ∧ s.pushed t c x q w ∧ s.wrote t c x rd 1 ∧
        freeCredits t c x q + 1 = freeCredits s c x q)) ∧
    (s.takes c x → s.unarmed → classFits w q = true → freeCredits s c x q = 0 →
      (∃ t, exec (.qpush c x q rs1 rs2) s = .next t ∧ s.stalls t c x (.qpush q w)) ∧
      (∃ t, exec (.qpushnb c x rd q rs1 rs2) s = .next t ∧ s.results t c x rd 0)) ∧
    (∀ w', (s.cc c x).stall = .qpush q w' → 0 < freeCredits s c x q → s.stopped = false →
      s.fencedSv c = false → ∃ t, exec (.qpushResume c x) s = .next t ∧ s.hartOnly t c x ∧ s.pushed t c x q w' ∧ s.wrote t c x 0 0)

/-- A pushed word of the wrong class halts the hart with code 0x05 and is not queued (R274, R268). Rests on log entry 31,
the model's reading or choice. -/
def Obligations.WrongClassOrQueueHaltsPush : Prop :=
  (∀ (c : CoreId) (x : Ctx) (rd rs1 rs2 : XReg) (q : Fin 8) (s : State), s.takes c x → s.unarmed →
    let w := wordOf (s.xreg c x rs1) (s.xreg c x rs2)
    let bad := (haltState s c x 0x05 0 q w).report .contained 0x08 c 0x05 (ctxParty x) 4 q
    let ill := (haltState s c x 0x01 0 0 0).report .contained 0x08 c 0x01 (ctxParty x) 3 0
    (q.val < 6 → classFits w q = false →
      exec (.qpush c x q rs1 rs2) s = .next bad ∧ exec (.qpushnb c x rd q rs1 rs2) s = .next bad) ∧
    (6 ≤ q.val →
      exec (.qpush c x q rs1 rs2) s = .next ill ∧ exec (.qpushnb c x rd q rs1 rs2) s = .next ill ∧
      exec (.qcred c x rd q) s = .next ill)) ∧
  (∀ (w : W128) (q : Nat), classOf w = 7 → classFits w q = false) ∧
  (∀ (w : W128) (q : Nat), q < 6 → (classFits w q = true ↔
    (classOf w, q) ∈ [(0, 0), (1, 0), (0, 1), (1, 1), (2, 2), (3, 3), (4, 4), (5, 5), (6, 5)]))

/-- XFENCE, SCWAIT and WFI retire when their condition holds and stall until then (R266, R273). Rests on log entries 3,
28, the model's reading or choice. -/
def Obligations.BlockingInstructions : Prop :=
  ∀ (c : CoreId) (x : Ctx) (s : State), (s.cc c x).stepping = false → s.unarmed →
    (s.takes c x → ∀ m : Fin 64,
      (fenceDone s c x m (s.cc c x).nextSeq = true → ∃ t, exec (.xfence c x m) s = .next t ∧ s.results t c x 0 0) ∧
      (fenceDone s c x m (s.cc c x).nextSeq = false → ∃ t, exec (.xfence c x m) s = .next t ∧
        s.stalls t c x (.xfence m (s.cc c x).nextSeq)) ∧ fenceDone s c x 0 (s.cc c x).nextSeq = true) ∧
    (∀ m n, (s.cc c x).stall = .xfence m n → fenceDone s c x m n = true → s.stopped = false →
      s.fencedSv c = false → ∃ t, exec (.xfenceRelease c x) s = .next t ∧ s.results t c x 0 0) ∧
    (s.takes c x → ∀ rd rs1 rs2 : XReg, ownsCtr s x (low14 (s.xreg c x rs1)) = true →
      let k := s.ctr (low14 (s.xreg c x rs1))
      let thr := (s.xreg c x rs2).setWidth 32
      (k.met thr.toNat = true → ∃ t, exec (.scwait c x rd rs1 rs2) s = .next t ∧ s.results t c x rd (k.read.setWidth 64)) ∧
      (k.met thr.toNat = false → ∃ t, exec (.scwait c x rd rs1 rs2) s = .next t ∧
        s.stalls t c x (.scwait rd (low14 (s.xreg c x rs1)) thr))) ∧
    (∀ rd n thr, (s.cc c x).stall = .scwait rd n thr → (s.ctr n).met thr.toNat = true → s.stopped = false →
      s.fencedSv c = false → ∃ t, exec (.scwaitRelease c x) s = .next t ∧ s.results t c x rd ((s.ctr n).read.setWidth 64)) ∧
    (s.takes c x → ∃ t, exec (.wfi c x) s = .next t ∧ s.stalls t c x (.wfi s.clk.tenths false)) ∧
    (∀ t0, (s.cc c x).stall = .wfi t0 true → s.fbit (R.CPCTL_ENABLE c) = true → s.stopped = false →
      s.fencedSv c = false → ∃ t, exec (.wfiWake c x) s = .next t ∧ s.results t c x 0 0) ∧
    (∀ t0, (s.cc c x).stall = .wfi t0 false → s.fbit (R.CPCTL_ENABLE c) = true → s.stopped = false →
      s.fencedSv c = false → s.clk.present = true → ∃ t, exec (.wfiWake c x) s = .next t ∧ (t.cc c x).stall = .none ∧
      (t.cc c x).pc = (s.cc c x).pc + 4 ∧ (t.cc c x).xs = (s.cc c x).xs ∧
      (t.cc c x).instret = (s.cc c x).instret + 1 ∧ t0 + 10000 ≤ t.clk.tenths)

/-- A hart runs the RV64 instruction at its pc: ADD, SUB, ADDI, JAL, BEQ, LD, SD and an illegal word (R256, R261, R264,
R268). Rests on log entry 30, the model's reading or choice. -/
def Obligations.ScalarInstructionsRun : Prop :=
  ∀ (c : CoreId) (x : Ctx) (rd rs1 rs2 : XReg) (imm : Int) (s : State),
    s.takes c x → (s.cc c x).stepping = false → s.unarmed →
    let pc := (s.cc c x).pc.toNat
    let a := s.xreg c x rs1
    let b := s.xreg c x rs2
    let at_ (w : Nat) : Prop := inIm s c x pc 4 = true ∧ scalarBytes s c x pc 4 = leBytes 4 w
    let ea := (a + BitVec.ofInt 64 imm).toNat
    let run := exec (.hartInstruction c x) s
    (at_ (encR 0x33 0 0 rd rs1 rs2) → ∃ t, run = .next t ∧ s.results t c x rd (a + b)) ∧
    (at_ (encR 0x33 0 0x20 rd rs1 rs2) → ∃ t, run = .next t ∧ s.results t c x rd (a - b)) ∧
    (-2048 ≤ imm → imm < 2048 → at_ (encI 0x13 0 rd rs1 imm) → ∃ t, run = .next t ∧
      s.results t c x rd (a + BitVec.ofInt 64 imm)) ∧
    (-1048576 ≤ imm → imm < 1048576 → imm % 2 = 0 → at_ (encJ rd imm) → ∃ t, run = .next t ∧
      (∀ n, t.xreg c x n = if n = 0 then 0 else if n = rd.val then (s.cc c x).pc + 4 else s.xreg c x n) ∧
      (t.cc c x).pc = (s.cc c x).pc + BitVec.ofInt 64 imm) ∧
    (-4096 ≤ imm → imm < 4096 → imm % 2 = 0 → at_ (encB 0 rs1 rs2 imm) → ∃ t, run = .next t ∧
      (∀ n, t.xreg c x n = s.xreg c x n) ∧
      (t.cc c x).pc = if a = b then (s.cc c x).pc + BitVec.ofInt 64 imm else (s.cc c x).pc + 4) ∧
    (-2048 ≤ imm → imm < 2048 → at_ (encI 0x03 3 rd rs1 imm) → ea % 8 = 0 → inDm s c x ea 8 = true →
      ∃ t, run = .next t ∧ s.results t c x rd (BitVec.ofNat 64 (ofLe (cellsGet (s.cc c x).dmem (ea - dmBase) 8)))) ∧
    (0 ≤ imm → imm < 2048 → at_ (encS 0x23 3 rs1 rs2 imm.toNat) → ea % 8 = 0 → inDm s c x ea 8 = true →
      ∃ t, run = .next t ∧ (∀ n, t.xreg c x n = s.xreg c x n) ∧ (t.cc c x).pc = (s.cc c x).pc + 4 ∧
      cellsGet (t.cc c x).dmem (ea - dmBase) 8 = leBytes 8 b.toNat ∧ t.mem = s.mem ∧
      (∀ o, o < ea - dmBase ∨ ea - dmBase + 8 ≤ o → tget 0 (t.cc c x).dmem o = tget 0 (s.cc c x).dmem o)) ∧
    (at_ 0x30200073 → run = .next ((haltState s c x 0x01 0 0 0).report .contained 0x08 c 0x01 (ctxParty x) 3 0))

/-- An add to a counter: exact sum, error outside 32 bits in plain and flow mode, clamp in saturating mode (R437, R438,
R695). Rests on log entry 41, the model's reading or choice. -/
def Obligations.CounterAdds : Prop :=
  ∀ (n : CtrId) (a : W32) (own : Ctx) (s : State), s.unarmed → (s.ctr n).owner = some own → (s.ctr n).bad = false →
    let k := s.ctr n
    let r := (k.val.toNat : Int) + a.toInt
    let d := n.val / 4096
    (bar4Up s = true →
      (k.mode ≠ 3 → 0 ≤ r → r < 2 ^ 32 → exec (.counterDoorbell n a) s = .next (s.setCtr n { k with val := BitVec.ofInt 32 r })) ∧
      (k.mode ≠ 3 → k.mode ≠ 1 → r < 0 → exec (.counterDoorbell n a) s =
        .next ((s.bump (R.SNUNDER d)).reportFrom .contained 0x28 d 1 (ctxParty own) 6 (n.val % 4096) (s.endpoint 0) false)) ∧
      (k.mode ≠ 3 → k.mode ≠ 1 → 2 ^ 32 ≤ r → exec (.counterDoorbell n a) s =
        .next ((s.bump (R.SNOVER d)).reportFrom .contained 0x28 d 2 (ctxParty own) 6 (n.val % 4096) (s.endpoint 0) false)) ∧
      (k.mode = 1 → r < 0 ∨ 2 ^ 32 ≤ r → exec (.counterDoorbell n a) s =
        .next (((s.setCtr n { k with val := if r < 0 then 0 else 0xFFFFFFFF, satf := true }).bump (R.SNSAT d)).reportFrom
          .notice 0x28 d 3 (ctxParty own) 6 (n.val % 4096) (s.endpoint 0) false))) ∧
    (∀ (c : CoreId) (rs1 rs2 : XReg), s.takes c own → (s.cc c own).stepping = false →
      low14 (s.xreg c own rs1) = n.val → (s.xreg c own rs2).setWidth 32 = a →
      k.mode ≠ 3 → 0 ≤ r → r < 2 ^ 32 → ∃ t, exec (.scadd c own rs1 rs2) s = .next t ∧
        (s.setCtr n { k with val := BitVec.ofInt 32 r }).results t c own 0 0)

/-- SCSET and a set of an unowned counter by register: VAL, and GEN with COUNT 0 on a barrier counter (R440). -/
def Obligations.CounterSets : Prop :=
  ∀ (n : CtrId) (v : W32) (s : State), s.unarmed →
    let k := s.ctr n
    let k' := if k.mode = 3 then { k with val := v &&& 0xFFFF0000, npart := 0, arrived := 0, early := 0, bad := false }
      else { k with val := v, bad := false }
    (∀ (c : CoreId) (x : Ctx) (rs1 rs2 : XReg), s.takes c x → (s.cc c x).stepping = false → k.owner = some x →
      low14 (s.xreg c x rs1) = n.val → (s.xreg c x rs2).setWidth 32 = v →
      ∃ t, exec (.scset c x rs1 rs2) s = .next t ∧ (s.setCtr n k').results t c x 0 0) ∧
    (∀ req, s.reaches req (R.SCNTVAL (n.val / 4096) (n.val % 4096)) →
      (k.owner = none → exec (.scntvalWrite req n v) s = .next (s.setCtr n k')) ∧
      (k.owner ≠ none → exec (.scntvalWrite req n v) s = .next (s.refusal (12 + n.val / 4096)))) ∧
    (k.owner ≠ none → ∀ m, ctrSet s n v m = s.setCtr n k') ∧
    (∀ (c : CoreId) (x : Ctx) (rd rs1 rs2 : XReg), s.takes c x → low14 (s.xreg c x rs1) = n.val → k.owner ≠ some x →
      let h := Outcome.next ((haltState s c x 0x04 0 n 0).report .contained 0x08 c 0x04 (ctxParty x) 6 n)
      exec (.scset c x rs1 rs2) s = h ∧ exec (.scadd c x rs1 rs2) s = h ∧ exec (.scrd c x rd rs1) s = h ∧
      exec (.scwait c x rd rs1 rs2) s = h)

/-- SBAR on a barrier counter: arrivals, early arrivals, mismatch, completion (R445). -/
def Obligations.BarrierArrival : Prop :=
  ∀ (n : CtrId) (b : CoreId) (p m : Nat) (x : Ctx) (s : State), s.unarmed →
    let k := s.ctr n
    let fresh := k.count = 0 ∧ k.early = 0
    let t := ctrBar s n b p m
    let d := n.val / 4096
    k.owner = some x → k.bad = false → k.mode = 3 → 0 < p → p ≤ 128 → k.count < 128 → (fresh → k.arrived = 0) →
    (fresh ∨ p = k.npart → bitOf k.arrived b = false → k.count + 1 < p →
      t = s.setCtr n { k with npart := p, arrived := k.arrived ||| 2 ^ b.val, val := barVal k.gen (k.count + 1) }) ∧
    (fresh ∨ p = k.npart → bitOf k.arrived b = false → k.count + 1 = p → k.early = 0 →
      t = s.setCtr n { k with npart := 0, arrived := 0, early := 0, val := barVal (k.gen + 1) 0 }) ∧
    (p = k.npart → bitOf k.arrived b = false → k.count + 1 = p → 0 < popcount 128 k.early → popcount 128 k.early < p →
      t = s.setCtr n { k with arrived := k.early, early := 0, val := barVal (k.gen + 1) (popcount 128 k.early) }) ∧
    (¬ fresh → p = k.npart → bitOf k.arrived b = true → k.count < p → bitOf k.early b = false →
      t = s.setCtr n { k with early := k.early ||| 2 ^ b.val }) ∧
    (¬ fresh → p ≠ k.npart ∨ (bitOf k.arrived b = true ∧ bitOf k.early b = true) →
      t = (s.bump (R.SNBARERR d)).reportFrom .contained 0x28 d 4 (ctxParty x) 6 (n.val % 4096) m false)

/-- XBAR arrives at a slot of its context's range and stalls; the release retires the generation's harts (R293, R294,
R448). Rests on log entry 77, the model's reading or choice. -/
def Obligations.FastBarriers : Prop :=
  (∀ (c : CoreId) (x : Ctx) (rs1 rs2 : XReg) (s : State), s.takes c x → s.unarmed →
    let slot := (s.xreg c x rs1).toNat % 16
    let mask := (s.xreg c x rs2).toNat % 16
    let key := clusterOf c * 16 + slot
    (fbOwns s c x slot = false → exec (.xbar c x rs1 rs2) s =
      .next ((haltState s c x 0x04 0 slot 0).report .contained 0x08 c 0x04 (ctxParty x) 4 slot)) ∧
    (∀ f, fbOwns s c x slot = true → (tget {} s.fb key : FbSlot).arrive (c % 4) mask = some f →
      ∃ t, exec (.xbar c x rs1 rs2) s = .next t ∧
        ({ s with fb := tput {} s.fb key f } : State).stalls t c x (.xbar slot mask)) ∧
    (fbOwns s c x slot = true → (tget {} s.fb key : FbSlot).arrive (c % 4) mask = none →
      exec (.xbar c x rs1 rs2) s = .next (fbMismatch s c x slot))) ∧
  (∀ b m : Fin 16, b.val < 4 → m ≠ 0 → bitOf m.val b = true →
    (m.val = 2 ^ b.val → ({} : FbSlot).arrive b m = some { gen := 1, release := m, mask := m }) ∧
    (m.val ≠ 2 ^ b.val → ({} : FbSlot).arrive b m = some { mask := m, arrived := 2 ^ b.val }) ∧
    (∀ f : FbSlot, f.release = 0 → f.arrived ≠ 0 →
      (f.mask = m.val → bitOf f.arrived b = false → f.arrived ||| 2 ^ b.val ≠ m.val →
        f.arrive b m = some { f with arrived := f.arrived ||| 2 ^ b.val }) ∧
      (f.mask = m.val → bitOf f.arrived b = false → f.arrived ||| 2 ^ b.val = m.val →
        f.arrive b m = some { f with gen := f.gen + 1, release := m, arrived := 0 }) ∧
      (f.mask ≠ m.val ∨ bitOf f.arrived b = true → f.arrive b m = none)) ∧
    (∀ f : FbSlot, f.release ≠ 0 →
      (f.early = 0 → bitOf f.release b = false → f.arrive b m = some { f with next := m, early := 2 ^ b.val }) ∧
      (f.early ≠ 0 → f.next = m.val → bitOf f.release b = false → bitOf f.early b = false →
        f.arrive b m = some { f with early := f.early ||| 2 ^ b.val }) ∧
      (bitOf f.release b = true ∨ (f.early ≠ 0 ∧ (f.next ≠ m.val ∨ bitOf f.early b = true)) → f.arrive b m = none))) ∧
  (∀ (f : FbSlot) (b m : Nat), bitOf m b = false → f.arrive b m = none) ∧
  (∀ (k : ClusterId) (slot : SlotId) (s : State), s.stopped = false →
    let f : FbSlot := tget {} s.fb (k.val * 16 + slot.val)
    (f.release = 0 → exec (.fastBarrierRelease k slot) s = .next s) ∧
    (f.release ≠ 0 → ∃ t, exec (.fastBarrierRelease k slot) s = .next t ∧
      (∀ n, n ≠ k.val * 16 + slot.val → (tget {} t.fb n : FbSlot) = tget {} s.fb n) ∧
      (let g : FbSlot := tget {} t.fb (k.val * 16 + slot.val);
        (f.early = 0 → f.arrived = 0 → g = { gen := f.gen }) ∧
        (f.early ≠ 0 → f.early ≠ f.next → g = { gen := f.gen, mask := f.next, arrived := f.early }) ∧
        (f.early ≠ 0 → f.early = f.next → g = { gen := f.gen + 1, mask := f.next, release := f.next })) ∧
      ∀ (j : Fin 4) (x : Ctx) (m : Nat), bitOf f.release j = true → s.fencedSv (k.val * 4 + j.val) = false →
        (s.cc (k.val * 4 + j.val) x).stall = .xbar slot m → (s.cc (k.val * 4 + j.val) x).stepping = false →
        (t.cc (k.val * 4 + j.val) x).stall = .none ∧
        (t.cc (k.val * 4 + j.val) x).pc = (s.cc (k.val * 4 + j.val) x).pc + 4))

/-- A write of ENABLE sets or clears exactly that bit; a self-test-fenced core's units keep it at 0 (R188, R193, R246,
R289, R718, R719, R757, R681, R541, R577, R501). Rests on log entry 10, the model's reading or choice. -/
def Obligations.EnableBitsOfUnits : Prop :=
  ∀ (req : Req) (c : CoreId) (e : EngId) (ch : ChanId) (on : Bool) (s : State),
    let v := if on then 1 else 0
    let vc := if on = true ∧ s.fencedTest c = false then 1 else 0
    let cleared (t : State) : Prop := t.regs = (s.fset (R.CPCTL_ENABLE c) 0).regs ∧ t.mem = s.mem ∧ t.ctrs = s.ctrs ∧
      t.reports = s.reports ∧ (∀ c', c' ≠ c.val → t.core c' = s.core c') ∧
      ∀ x, (t.cc c x).stall = .none ∧ (t.cc c x).pc = (s.cc c x).pc ∧ (t.cc c x).xs = (s.cc c x).xs ∧
        (t.cc c x).instret = (s.cc c x).instret ∧ (t.cc c x).hst = (s.cc c x).hst ∧
        (t.cc c x).queues = (s.cc c x).queues
    (s.reaches req (R.DMACTL ch) → exec (.dmactlEnable req ch on) s = .next (s.fset (R.DMACTL_ENABLE ch) v)) ∧
    (s.reaches req R.STEPCTL → exec (.stepctlEnable req on) s = .next (s.fset R.STEPCTL_ENABLE v)) ∧
    (s.reaches req R.LEDCTL → exec (.ledctlEnable req on) s = .next (s.fset R.LEDCTL_ENABLE v)) ∧
    (s.reaches req R.COLCTL → exec (.colctlEnable req on) s = .next (s.fset R.COLCTL_ENABLE v)) ∧
    (s.reaches req (R.VUCTL c) → exec (.vuctlEnable req c on) s = .next (s.fset (R.VUCTL_ENABLE c) vc)) ∧
    (s.reaches req (R.WVCTL c e) →
      (vc = 0 ∨ s.fbit (R.WVCTL_ENABLE c e) = true ∨ busy s c e = true →
        exec (.wvctlEnable req c e on) s = .next (s.fset (R.WVCTL_ENABLE c e) vc)) ∧
      (vc = 1 → s.fbit (R.WVCTL_ENABLE c e) = false → busy s c e = false →
        ∃ t, exec (.wvctlEnable req c e on) s = .next t ∧ t.regs = (s.fset (R.WVCTL_ENABLE c e) 1).regs ∧
          pwrRestart t c e = true ∧ ({ t with regs := s.regs, cores := s.cores } : State) = s ∧
          (∀ c', c' ≠ c.val → t.core c' = s.core c') ∧ t.core c = { s.core c with pwr := (t.core c).pwr })) ∧
    (s.reaches req (R.CPCTL c) →
      (vc = 1 → exec (.cpctlEnable req c on) s = .next (s.fset (R.CPCTL_ENABLE c) 1)) ∧
      (vc = 0 → ∃ t, exec (.cpctlEnable req c on) s = .next t ∧ cleared t))

/-- WVCTL.ABORT, VUCTL.ABORT and CPCTL.ABORTD or ABORTT discard queued entries and only those (R194, R290). -/
def Obligations.AbortDiscardsQueuedWork : Prop :=
  ∀ (req : Req) (c : CoreId) (e : EngId) (x : Ctx) (s : State),
    let flying (s : State) : List (Nat × InFlight) := (s.core c).infl.map fun u => (u.1, { u.2 with told := false })
    let kept (t : State) : Prop := flying t = flying s ∧ t.ctrs = s.ctrs ∧ t.mem = s.mem ∧
      (t.core c).mats = (s.core c).mats ∧ (∀ y, (t.cc c y).cq = (s.cc c y).cq) ∧
      (∀ c', c' ≠ c.val → t.core c' = s.core c') ∧ t.reports = s.reports
    (s.reaches req (R.WVCTL c e) → ∃ t, exec (.wvctlAbort req c e) s = .next t ∧ kept t ∧
      (∀ y, t.queue c y e = []) ∧ (∀ y q, q ≠ e.val → t.queue c y q = s.queue c y q) ∧
      (t.rd (R.WVDISC c e)).toNat = min 0xFFFFFFFF ((s.rd (R.WVDISC c e)).toNat +
        (s.queue c .d e).length + (s.queue c .t e).length) ∧ ∀ o, o ≠ R.WVDISC c e → t.rd o = s.rd o) ∧
    (s.reaches req (R.VUCTL c) → ∃ t, exec (.vuctlAbort req c) s = .next t ∧ kept t ∧
      (∀ y, t.queue c y 2 = []) ∧ (∀ y q, q ≠ 2 → t.queue c y q = s.queue c y q) ∧
      (t.rd (R.VUDISC c)).toNat = min 0xFFFFFFFF ((s.rd (R.VUDISC c)).toNat +
        (s.queue c .d 2).length + (s.queue c .t 2).length) ∧ ∀ o, o ≠ R.VUDISC c → t.rd o = s.rd o) ∧
    (s.reaches req (R.CPCTL c) → ∃ t, exec (.cpctlAbort req c x) s = .next t ∧ kept t ∧
      (∀ q, q < 6 → t.queue c x q = [] ∧ freeCredits t c x q = creditsOf s c x q) ∧
      (∀ q, t.queue c (other x) q = s.queue c (other x) q) ∧
      (∀ p ∈ [(R.WVDISC c 0, 0), (R.WVDISC c 1, 1), (R.VUDISC c, 2)],
        (t.rd p.1).toNat = min 0xFFFFFFFF ((s.rd p.1).toNat + (s.queue c x p.2).length)) ∧
      ∀ o, o ∉ [R.WVDISC c 0, R.WVDISC c 1, R.VUDISC c] → t.rd o = s.rd o)

/-- HALT, RESUME and STEP in debug mode, and their refusal without it (R287, R286, R284, R785). Rests on log entries 18,
78, the model's reading or choice. -/
def Obligations.DebugHaltResumeStep : Prop :=
  ∀ (req : Req) (c : CoreId) (x : Ctx) (s : State), s.unarmed → s.reaches req (R.CPCTL c) →
    (s.fbit (R.CPCTL_DBGEN c) = false →
      let t := Outcome.next (s.reportFrom .notice 0x0A c 2 .none 9 0 (s.endpoint 0) false)
      exec (.cpctlHalt req c x) s = t ∧ exec (.cpctlResume req c x) s = t ∧ exec (.cpctlStep req c x) s = t) ∧
    (s.fbit (R.CPCTL_DBGEN c) = true →
      (s.loaded x = true → s.named x c = true → (s.cc c x).hst ≠ .halted →
        (s.cc c x).hst ≠ .notLoaded → exec (.cpctlHalt req c x) s = .next (haltState s c x 0x0D 7 0 0)) ∧
      ((s.cc c x).hst = .halted →
        let w := (s.rd (match x with | .d => R.CPHALTD c | .t => R.CPHALTT c)).toNat
        let src := bitsOf w 21 3
        ∃ t, exec (.cpctlResume req c x) s = .next t ∧ (t.cc c x).issueHalt = false ∧
          (t.cc c x).hst = (if (s.job x).elim false (·.started) then .running else .waiting) ∧
          (t.cc c x).pc = (s.cc c x).pc ∧ t.ctrs = s.ctrs ∧ (t.cc c x).cq = (s.cc c x).cq ∧
          (src = 0 ∨ src = 7 → ∀ q, t.queue c x q = s.queue c x q) ∧
          (1 ≤ src → src ≤ 6 → bitsOf w 24 8 ≠ 0x40 → t.queue c x (src - 1) = (s.queue c x (src - 1)).tail)) ∧
      ((s.cc c x).hst = .halted → s.loaded x = true → s.stopped = false → s.fencedSv c = false →
        s.fbit (R.CPCTL_ENABLE c) = true →
        exec (.cpctlStep req c x) s =
          .next (hartStep (s.setCc c x { s.cc c x with hst := .running, stepping := true }) c x) ∧
        ∀ rd rs1 rs2 : XReg, let pc := (s.cc c x).pc.toNat
          inIm s c x pc 4 = true → scalarBytes s c x pc 4 = leBytes 4 (encR 0x33 0 0 rd rs1 rs2) →
          ∃ t, exec (.cpctlStep req c x) s = .next t ∧ (t.cc c x).hst = .halted ∧ (t.cc c x).issueHalt = true ∧
            (t.cc c x).pc = (s.cc c x).pc + 4 ∧ (t.cc c x).instret = (s.cc c x).instret + 1 ∧
            (∀ n, t.xreg c x n = if n = 0 then 0 else if n = rd.val then s.xreg c x rs1 + s.xreg c x rs2
              else s.xreg c x n) ∧
            (∀ q, t.queue c x q = s.queue c x q) ∧ t.reports = s.reports ∧ t.mem = s.mem ∧
            (t.rd (match x with | .d => R.CPHALTD c | .t => R.CPHALTT c)).toNat / 2 ^ 24 = 0x0C)) ∧
    (∀ pc', (s.cc c x).stepping = true → (s.cc c x).hst ≠ .notLoaded →
      let t := hartRetire s c x pc'
      (t.cc c x).hst = .halted ∧ (t.cc c x).pc = pc' ∧ (t.cc c x).instret = (s.cc c x).instret + 1 ∧
      (t.cc c x).stepping = false ∧ t.reports = s.reports ∧
      (t.rd (match x with | .d => R.CPHALTD c | .t => R.CPHALTT c)).toNat / 2 ^ 24 = 0x0C)

/-- WEAVE, UNLOAD, MOVET, MOVER, WSTORE, WMSG and DMAGO at the head of their queue issue, and what they hold in flight
(R276, R311, R359, R363, R149, R154, R155, R171, R174, R346, R350, R353). Rests on log entry 25, the model's reading
or choice. -/
def Obligations.MoverAndWeaveIssue : Prop :=
  ∀ (c : CoreId) (eng : EngId) (r : IssueRow) (s : State) (x : Ctx) (e : QEntry), r ∈ moverRows c eng → s.unarmed →
    s.atHead c r x e → s.released c r x e → firstFail (r.allChecks s c x e) = none →
    ∃ t i, exec r.cmd s = .next t ∧ s.launched t c r.q x e ∧ inflightAt t c r.q = some i ∧
      let w := e.word
      let iss := r.iss s c x e
      let ls (o : OpD) (n : Nat) : Prop := o.space = 0 ∧ ∀ k, k < n → tierOf (lsBase c + o.base + k) = some (.ls c) ∧
        granted s x (lsBase c + o.base + k) 1 = true ∧ s.poison.contains ((lsBase c + o.base + k) / 4) = false
      (∀ sa sb, r.cls = 0 → iss.empty = false → weaveMode w = 0 → iss.l.klen = 1 → iss.l.outN = 1 → iss.strm 0 = some sa →
        iss.strm 1 = some sb → i.effs = [(upto 1024).map fun k =>
          let p := (round32 (weaveProduct (weaveElem s c sa 0 0 0 (k / 32)) (weaveElem s c sb 0 0 0 (k % 32))).1).1
          Eff.mat eng (wf w 33 6 * 1024 + k) (valWord (if wb w 22 then
            (add32 (wordVal (matWord s c eng (wf w 33 6) k)) p).1 else p))]) ∧
      (∀ sd, r.cls = 1 → prod iss.l.active = 1 → wb w 30 = false → wf w 36 2 = 0 → wf w 31 5 = 0 → iss.strm 3 = some sd →
        sd.f = .fp32 → sd.od.linear = true → sd.od.tcols = 0 → (convOf sd).mode ≠ .stoch →
        (∃ cells, Eff.mem cells [] [] ∈ i.effs.flatten ∧ ∀ row col k, row < 32 → col < 32 → k < 4 →
          let v := (mul32 (wordVal (matWord s c eng (wf w 38 6) (32 * row + col))) (fNat 1)).1
          (sd.tileDev c 0 0 + 128 * row + 4 * col + k, (leBytes 4 (convertTo .fp32 (convOf sd) 0 v).1).getD k 0) ∈ cells) ∧
        (wb w 29 = true → ∀ k, k < 1024 → Eff.mat eng (wf w 38 6 * 1024 + k) 0 ∈ i.effs.flatten) ∧
        ∀ a b v, Eff.mat a b v ∈ i.effs.flatten → wb w 29 = true ∧ a = eng.val ∧ b / 1024 = wf w 38 6 ∧ v = 0) ∧
      (∀ a d, r.cls = 3 → r.op = 1 → prod iss.l.active = 1 → iss.od 0 = some a → iss.od 3 = some d →
        ls a (rlenOf w) → ls d (rlenOf w) → ∃ cells, i.effs = [[Eff.mem cells [] []]] ∧
          (∀ k, k < rlenOf w → (lsBase c + d.base + k, (s.ld (lsBase c + a.base) (rlenOf w)).getD k 0) ∈ cells) ∧
          ∀ q ∈ cells, lsBase c + d.base ≤ q.1 ∧ q.1 < lsBase c + d.base + rlenOf w) ∧
      (∀ a d, r.cls = 4 → r.op = 0 → prod iss.l.active = 1 → iss.od 0 = some a → iss.od 3 = some d → d.space = 2 →
        ls a (wlenOf w) → i.effs = [[Eff.wstore (some d.endpoint) d.base (s.ld (lsBase c + a.base) (wlenOf w)) []]]) ∧
      (∀ a, r.cls = 4 → r.op = 2 → iss.od 0 = some a →
        i.effs = [[Eff.dmago (chOf w) (spaceAddr c a.space a.base) (nentOf w)]])

/-- The 20 element operations of the vector unit at the head of queue 2 issue; what a VADD of FP32 registers holds in
flight (R276, R311, R359, R363, R206, R214, R215, R117). Rests on log entries 23, 25, 82, the model's reading or
choice. -/
def Obligations.VectorElementIssue : Prop :=
  ∀ (c : CoreId) (r : IssueRow) (s : State) (x : Ctx) (e : QEntry), r ∈ elementRows c → s.unarmed →
    s.atHead c r x e → s.released c r x e → firstFail (r.allChecks s c x e) = none →
    ∃ t i, exec r.cmd s = .next t ∧ s.launched t c r.q x e ∧ inflightAt t c r.q = some i ∧
      let w := e.word
      let val (k n : Nat) : FVal := wordVal (tget 0 (s.core c).vregs ((vSel w k - 32) * 256 + n))
      let sum (n : Nat) : FVal × Fl := add32 (val 0 n) (val 1 n)
      (r.op = 1 → prod (r.iss s c x e).l.active = 1 → vLw w = 0 → 32 ≤ vSel w 0 → 32 ≤ vSel w 1 → 32 ≤ vSel w 3 →
        i.effs = [(upto 256).map fun n => Eff.vreg ((vSel w 3 - 32) * 256 + n) (valWord (sum n).1)] ∧
        i.flags = (upto 256).foldl (fun f n => f ||| ((val 0 n).inFlags ||| (val 1 n).inFlags ||| (sum n).2)) 0)

/-- The reductions, TOPK and the curve and generator instructions at the head of queue 2 issue; VCRVLD's table, VRSEED's
seed (R276, R311, R359, R363, R222, R238). Rests on log entry 25, the model's reading or choice. -/
def Obligations.VectorReduceAndTableIssue : Prop :=
  ∀ (c : CoreId) (r : IssueRow) (s : State) (x : Ctx) (e : QEntry), r ∈ reduceRows c → s.unarmed →
    s.atHead c r x e → s.released c r x e → firstFail (r.allChecks s c x e) = none →
    ∃ t i, exec r.cmd s = .next t ∧ s.launched t c r.q x e ∧ inflightAt t c r.q = some i ∧
      let a := rawAddr (r.iss s c x e) 0
      (r.op = 0x29 → s.poisoned a 8 = false → i.flags = 0 ∧ ∃ seed, i.effs = [[Eff.reseed seed]] ∧
        seed = BitVec.ofNat 64 (ofLe (s.ld a 8)) ∧ ∀ u : State, ((perform c x u (.reseed seed)).cc c x).seed = seed ∧
          ((perform c x u (.reseed seed)).cc c x).rng = []) ∧
      (∀ (u : State) n bs ok, (tget [] ((perform c x u (.curve n bs ok)).core c).curves n : List Byte) = bs) ∧
      (r.op = 0x28 → s.poisoned a 3136 = false → i.flags = 0 ∧
        i.effs = [[Eff.curve (wf e.word 4 5) (s.ld a 3136) (tableOk s c x (s.ld a 3136))]])

/-- SNOP, SADD, SSET, SBAR, CNOP, WEND and CDRAIN issue to the sync port with the operation of their row (R276, R311,
R354, R359, R363). Rests on log entries 25, 70, the model's reading or choice. -/
def Obligations.SyncAndControlIssue : Prop :=
  ∀ (c : CoreId) (r : IssueRow) (s : State) (x : Ctx) (e : QEntry), r ∈ syncRows c → s.unarmed →
    s.atHead c r x e → s.released c r x e → firstFail (r.allChecks s c x e) = none →
    ∃ t, exec r.cmd s = .next t ∧ s.launched t c 5 x e ∧ s.coreOnly t c ∧
      ∃ i, inflightAt t c 5 = some i ∧ i.flags = 0 ∧
        i.effs = [if r.cls = 5 ∧ r.op = 1 then [Eff.cadd (wf e.word 32 14) (signedOf (wf e.word 0 32) 32)]
          else if r.cls = 5 ∧ r.op = 2 then [Eff.cset (wf e.word 32 14) (BitVec.ofNat 32 (wf e.word 0 32))]
          else if r.cls = 5 ∧ r.op = 3 then [Eff.sbar (wf e.word 32 14) (e.word.toNat % 65536)]
          else if r.cls = 6 ∧ r.op = 1 then [Eff.wend (wf e.word 16 3) (e.word.toNat % 65536)] else []]

/-- An entry whose wait does not hold stays; one that fails a check halts its context with the least code (R359, R363,
R307, R312). Rests on log entries 21, 25, the model's reading or choice. -/
def Obligations.IssueWaitsOrHalts : Prop :=
  ∀ (c : CoreId) (eng : EngId) (r : IssueRow) (s : State) (x : Ctx) (e : QEntry),
    r ∈ moverRows c eng ++ elementRows c ++ reduceRows c ++ syncRows c → s.atHead c r x e →
    ((wenOf e.word = true ∧ (s.ctr (wctrOf e.word)).met (wthrOf e.word) = false) ∨
      Sys2Proof.Machine.held s c x e.word = true ∨ r.hold s x e.word = true → exec r.cmd s = .next s) ∧
    (s.unarmed → s.released c r x e → ∀ code, firstFail (r.allChecks s c x e) = some code →
      (code, true) ∈ r.allChecks s c x e ∧ (∀ n, (n, true) ∈ r.allChecks s c x e → code ≤ n) ∧
      exec r.cmd s = .next ((haltState s c x code (1 + r.q) 0 e.word).report .contained 0x08 c code (ctxParty x) 4 0))

/-- Retirement performs an instruction's effects, then its signal, then its completion post (R311). Rests on log entries
2, 91, the model's reading or choice. -/
def Obligations.RetirementInOrder : Prop :=
  ∀ (c : CoreId) (u : UnitId) (s : State),
    (inflightAt s c u = none → exec (.instructionRetire c u) s = .next s) ∧
    (∀ i, inflightAt s c u = some i → s.grave = false → mayRetire s c u i = true →
      let s1 := performAll c i.ctx i.effs.flatten (leaveUnit s c u)
      let s2 := if i.flags = 0 then s1 else setFlags s1 c i.ctx i.flags
      let s3 := if senOf i.word then ctrAdd s2 (sctrOf i.word) (samtOf i.word) (s2.endpoint (0x80 + c)) else s2
      let s4 := if cmplOf i.word then cqPost s3 c i.ctx (completionWord u s3.rtag (tagOf i.word)) else s3
      exec (.instructionRetire c u) s = .next (if u.val ≤ 1 then pwrSettle s4 c u else s4)) ∧
    (∀ i n a x, inflightAt s c 5 = some i → s.grave = false → s.unarmed → mayRetire s c 5 i = true →
      i.effs = [[.cadd n a]] → i.flags = 0 → senOf i.word = false → cmplOf i.word = false →
      (s.ctr n).owner = some x → (s.ctr n).mode = 0 → (s.ctr n).bad = false →
      0 ≤ ((s.ctr n).val.toNat : Int) + a → ((s.ctr n).val.toNat : Int) + a < 2 ^ 32 →
      ∃ t, exec (.instructionRetire c 5) s = .next t ∧
        t.ctr n = { s.ctr n with val := BitVec.ofInt 32 (((s.ctr n).val.toNat : Int) + a) } ∧
        (∀ m, m ≠ n → t.ctr m = s.ctr m) ∧ inflightAt t c 5 = none ∧ t.mem = s.mem ∧
        ∀ y q, t.queue c y q = s.queue c y q)

/-- An instruction over time is stopped and its context halted with code 0x40, without signal or post (R69). Rests on log
entries 27, 70, the model's reading or choice. -/
def Obligations.InstructionOverTime : Prop :=
  ∀ (c : CoreId) (u : UnitId) (n : Nat) (i : InFlight) (s : State), inflightAt s c u = some i → s.grave = false →
    s.clk.present = true → s.unarmed → hasElements i = true →
    (∀ e ∈ i.effs.flatten, ∀ ctr a v p, e ≠ .cadd ctr a ∧ e ≠ .cset ctr v ∧ e ≠ .sbar ctr p) →
    ∃ t, exec (.instructionOverTime c u n) s = .next t ∧ inflightAt t c u = none ∧
      (t.cc c i.ctx).hst = (if (s.cc c i.ctx).hst = .notLoaded then .notLoaded else .halted) ∧
      (t.cc c i.ctx).issueHalt = true ∧ (t.cc c i.ctx).haltCmd = i.word ∧
      bitsOf (t.rd (match i.ctx with | .d => R.CPHALTD c | .t => R.CPHALTT c)).toNat 21 11 = 0x40 * 8 + (1 + u.val) ∧
      (t.rd R.WDOGCNT).toNat = min 0xFFFFFFFF ((s.rd R.WDOGCNT).toNat + 1) ∧
      t.ctrs = s.ctrs ∧ (∀ x, (t.cc c x).cq = (s.cc c x).cq) ∧
      (t.cc c (other i.ctx)).hst = (s.cc c (other i.ctx)).hst ∧
      ∃ r ∈ t.reports, r.cls = .contained ∧ r.det = 0x08 ∧ r.cause = 0x40 ∧ r.party = ctxParty i.ctx

/-- A write of bytes reads back at its addresses, leaves every other byte, and treats poison as R398 says (R14, R398,
R478). Rests on log entry 5, the model's reading or choice. -/
def Obligations.MemoryReadsWhatWasWritten : Prop :=
  ∀ (s : State) (a : Nat) (bs : List Byte),
    (∀ k, k < bs.length → (s.st a bs).ld (a + k) 1 = [bs.getD k 0]) ∧
    (∀ b, b < a ∨ a + bs.length ≤ b → (s.st a bs).ld b 1 = s.ld b 1) ∧
    (∀ w, w ∈ (s.st a bs).poison ↔ w ∈ s.poison ∧ ¬ (a ≤ 4 * w ∧ 4 * w + 4 ≤ a + bs.length)) ∧
    (∀ w, w ∈ (s.stPoison a bs).poison ↔ w ∈ s.poison ∨ (bs ≠ [] ∧ a / 4 ≤ w ∧ w ≤ (a + bs.length - 1) / 4)) ∧
    (Memory.wf s.mem = true → Memory.wf (s.st a bs).mem = true) ∧
    ({ s.st a bs with mem := s.mem, poison := s.poison } : State) = s

/-- A host access through BAR2 reaches HBM at BAR2WIN.BASE GiB + offset, or ends unsupported (R392). Rests on log entries
33, 36, the model's reading or choice. -/
def Obligations.Bar2ReachesMemory : Prop :=
  ∀ (off len : Nat) (data : List (Option Byte)) (s : State), s.unarmed →
    let a := s.fget R.BAR2WIN_BASE * 2 ^ 30 + off
    (bar2Ok s off len = true → ∃ t, exec (.bar2Read off len) s = .next t ∧ t.reply = .data (s.ld a len) ∧ t.mem = s.mem ∧
      t.ctrs = s.ctrs) ∧
    (bar2Ok s off len = false → exec (.bar2Read off len) s = .next { s with reply := .unsupported }) ∧
    (bar2Ok s off data.length = true → ∃ t, exec (.bar2Write off data) s = .next t ∧
      (∀ k, k < data.length → t.ld (a + k) 1 = match data.getD k none with | some b => [b] | none => s.ld (a + k) 1) ∧
      (∀ b, b < a ∨ a + data.length ≤ b → t.ld b 1 = s.ld b 1) ∧ t.ctrs = s.ctrs ∧ t.cores = s.cores) ∧
    (bar2Ok s off data.length = false → exec (.bar2Write off data) s = .next s) ∧
    (∀ n, 0x6000000000 < a + n → bar2Ok s off n = false)

/-- A fill's line enters the ways of its context; RELD and RELT release marks; FLUSH empties a region (R379, R380, R382,
R410). Rests on log entry 32, the model's reading or choice. -/
def Obligations.CacheRows : Prop :=
  (∀ (r : RegionId) (n : Nat) (s : State), s.grave = false →
    let num := r.val * 0xC000000 + n
    (0xC000000 ≤ n → exec (.cacheFillComplete r n) s = .next s) ∧
    (n < 0xC000000 → ∀ f x, s.fills.find? (·.num == num) = some f → f.whole.ctx = some x → s.cached num = false →
      ((s.lines num).filter (·.ctx = x)).length < waysOf s r x →
      exec (.cacheFillComplete r n) s = .next (({ s with fills := s.fills.filter (·.num != num) } : State).setLines num
        (⟨num, x, f.whole.dirty, f.whole.retain, false⟩ :: s.lines num))) ∧
    (n < 0xC000000 → ∀ f, s.fills.find? (·.num == num) = some f → f.whole.ctx = none ∨ s.cached num = true →
      exec (.cacheFillComplete r n) s = .next { s with fills := s.fills.filter (·.num != num) })) ∧
  (∀ (req : Req) (r : RegionId) (x : Ctx) (s : State), s.reaches req (R.SCCTL r) →
    (∃ t, exec (.scctlRelease req r x) s = .next t ∧ ({ t with cache := s.cache } : State) = s ∧
      t.cache = s.cache.map fun e => (e.1, e.2.map fun l =>
        if e.1 / 65536 = r.val ∧ l.ctx = x then { l with retained := false } else l)) ∧
    (s.unarmed → s.anyJob = true → exec (.scctlFlush req r) s = .next (s.refusal (16 + r.val))) ∧
    (s.unarmed → s.anyJob = false → ∃ t, exec (.scctlFlush req r) s = .next t ∧
      (∀ e ∈ t.cache, ∀ l ∈ e.2, lineRegion l.num ≠ r.val) ∧
      (∀ e ∈ s.cache, ∀ l ∈ e.2, lineRegion l.num ≠ r.val → ∃ e' ∈ t.cache, e'.1 = e.1 ∧ l ∈ e'.2) ∧
      t.regs = s.regs ∧ (∀ a, (∀ e ∈ s.cache, ∀ l ∈ e.2, lineRegion l.num = r.val → l.pinned = true → l.num ≠ a / 256) →
        t.ld a 1 = s.ld a 1)))

/-- The scrubber counts and reports what it finds, poisons what it cannot correct, and rewrites its queue (R396, R397).
Rests on log entries 6, 34, the model's reading or choice. -/
def Obligations.ScrubberRows : Prop :=
  ∀ (d : DieId) (a found : Nat) (c : CoreId) (s : State),
    (s.fget R.MEMCTL_SCRBPER = 0 ∨ scrubbed s d a = false → exec (.scrubPatrol d a found) s = .next s) ∧
    (s.unarmed → s.grave = false → 2 ≤ s.stage → s.fget R.MEMCTL_SCRBPER ≠ 0 → scrubbed s d a = true → tierOf a = some (.ls c) →
      s.poison.contains (a / 4) = false →
      let own := ownerOf s (a / 4 * 4)
      (found = 0 → exec (.scrubPatrol d a found) s = .next s) ∧
      (found = 1 → exec (.scrubPatrol d a found) s = .next ((s.bump (R.MEMCOR d)).reportFrom .corrected 0x19 d 1
        (optParty own) 0xA (a / 4 * 4) (s.endpoint 0) false)) ∧
      (found = 2 → ∃ t, exec (.scrubPatrol d a found) s = .next t ∧ t.poison = nins s.poison (a / 4) ∧ t.mem = s.mem ∧
        t.regs = (s.bump (R.MEMUNC d)).regs ∧ ∃ r, t.reports = s.reports ++ [r] ∧ r.det = 0x19 ∧ r.cause = 2 ∧
        r.cls = (if own.isNone then .notice else .contained) ∧ r.party = optParty own)) ∧
    (s.grave = false → ∃ t, exec (.scrubRewrite d) s = .next t ∧ tget [] t.rewrites d = (tget [] s.rewrites d).tail ∧
      ({ t with rewrites := s.rewrites } : State) = s)

/-- A CXL root port comes up with its generation, width and capacity, fails with a fault, and the store test (R387, R388,
R390, R407). Rests on log entry 35, the model's reading or choice. -/
def Obligations.CxlPortAndStoreTest : Prop :=
  (∀ (p : RootId) (g w : Fin 4) (k : Fin 4096) (s : State), s.unarmed → s.grave = false → 2 ≤ s.stage → g ≠ 0 → g ≠ 3 → w ≠ 0 →
    s.fget (R.CXLSTAT_STATE p) ≠ 3 →
    (usesCxl s .d p = false → usesCxl s .t p = false → ∃ t, exec (.cxlLinkUp p g w k) s = .next t ∧
      t.fget (R.CXLSTAT_STATE p) = 2 ∧ t.fget (R.CXLSTAT_GEN p) = g.val ∧ t.fget (R.CXLSTAT_WIDTH p) = w.val ∧
      t.fget (R.CXLSTAT_CAPG p) = min k.val 2048 ∧ s.regsBut t [R.CXLSTAT p]) ∧
    (usesCxl s .d p = true ∨ usesCxl s .t p = true → exec (.cxlLinkUp p g w k) s =
      .next ((s.fset (R.CXLSTAT_BUSYREF p) 1).refusal 2))) ∧
  (∀ (p : RootId) (s : State), s.unarmed → s.grave = false → s.fget (R.CXLSTAT_STATE p) ≠ 0 →
    ∃ t, exec (.cxlLinkFailure p) s = .next t ∧ t.fget (R.CXLSTAT_STATE p) = 3 ∧ t.mem = s.mem ∧
      t.reports.length = s.reports.length + (if usesCxl s .d p then 1 else 0) + (if usesCxl s .t p then 1 else 0)) ∧
  (∀ (c : CoreId) (s : State),
    (s.grave = false → s.fbit R.TLCTL_OPEN = true → s.anyJob = false → 2 ≤ s.stage → Memory.wf s.mem = true → ∃ t, exec (.coreTestRequest c) s = .next t ∧
      (∀ k, k < 0x3000000 → t.ld (seqSlot c + k) 1 = s.ld (lsBase c + k) 1) ∧
      (∀ b, b < seqSlot c ∨ seqSlot c + 0x3000000 ≤ b → t.ld b 1 = s.ld b 1) ∧ t.regs = s.regs) ∧
    (s.fbit R.TLCTL_OPEN = false ∨ s.anyJob = true → exec (.coreTestRequest c) s = .next s))

/-- Withy stores and messages take effect in their source's order; a refused one returns its error (R292, R489, R490).
Rests on log entry 37, the model's reading or choice. -/
def Obligations.WithyDeliveries : Prop :=
  ∀ (src : Nat × Ctx) (rest : List WithyItem) (s : State), s.unarmed → s.grave = false →
    let alone : Prop := ∀ i ∈ rest, (i.src.1 = src.1 ∧ i.body.away = none) ∨ clusterOf i.src.1 ≠ clusterOf src.1
    (∀ c q ws own, alone → s.withy = ⟨src, .msg c q ws⟩ :: rest → mqOwner s c q = some own → (s.mq c q).length + ws.length ≤ 64 →
      ∃ t, exec .withyMessageDelivery s = .next t ∧ t.withy = rest ∧
        t.mq c q = s.mq c q ++ ws.map (fun w => queueWord true w.2 w.1) ∧ t.mem = s.mem ∧ t.regs = s.regs) ∧
    (∀ a bs bad, alone → s.withy = ⟨src, .store a bs bad⟩ :: rest → bs ≠ [] →
      (∀ k, k < bs.length → ∃ c, tierOf (a + k) = some (.ls c)) →
      (granted s src.2 a bs.length = true → granted s src.2 (a + bs.length - 1) 1 = true →
        ∃ t, exec .withyStoreDelivery s = .next t ∧ t.withy = rest ∧
          (∀ k, k < bs.length → t.ld (a + k) 1 = [bs.getD k 0]) ∧
          (∀ b, b < a ∨ a + bs.length ≤ b → t.ld b 1 = s.ld b 1)) ∧
      (granted s src.2 a bs.length = false → ∃ t, exec .withyStoreDelivery s = .next t ∧ t.withy = rest ∧
        t.mem = s.mem ∧ t.withyErrs = s.withyErrs ++ [src] ∧ ∃ r, t.reports = s.reports ++ [r] ∧ r.cls = .contained ∧
        r.det = 0x22 ∧ r.party = ctxParty src.2)) ∧
    (∀ a bs bad c q ws, s.withy = [⟨src, .store a bs bad⟩, ⟨src, .msg c q ws⟩] →
      exec .withyMessageDelivery s = .next s) ∧
    (∀ i j : WithyItem, s.withy = [i, j] → i.src.1 ≠ j.src.1 → i.body.away = none → j.body.away = none →
      clusterOf i.src.1 = clusterOf j.src.1 →
      let turn := tget 0 s.stopTurn (clusterOf i.src.1 * 4 + 1)
      let dist (c : Nat) : Nat := (c % 4 + 4 - turn % 4) % 4
      let win := if dist i.src.1 < dist j.src.1 then i else j
      let turned (t : State) : Prop := t.withy = (if dist i.src.1 < dist j.src.1 then [j] else [i]) ∧
        tget 0 t.stopTurn (clusterOf i.src.1 * 4 + 1) = (win.src.1 + 1) % 4
      (withyIsStore win = false → exec .withyStoreDelivery s = .next s ∧
        ∃ t, exec .withyMessageDelivery s = .next t ∧ turned t) ∧
      (withyIsStore win = true → exec .withyMessageDelivery s = .next s ∧
        ∃ t, exec .withyStoreDelivery s = .next t ∧ turned t)) ∧
    (∀ ep a bs bad, ownBlock s ep = false →
      let cl := clusterOf src.1
      let dist (c : Nat) : Nat := (c % 4 + 4 - tget 0 s.stopTurn (cl * 4 + 1) % 4) % 4
      let sent := perform src.1 src.2 s (.wstore (some ep) a bs bad)
      (s.withy = [] → sent = storeAway { s with stopTurn := tput 0 s.stopTurn (cl * 4 + 1) ((src.1 + 1) % 4) }
        src.1 src.2 ep a bs bad) ∧
      (∀ i, s.withy = [i] → clusterOf i.src.1 = cl → i.body.away = none → dist i.src.1 < dist src.1 →
        sent = { s with withy := [i, ⟨src, .storeAway ep a bs bad⟩] })) ∧
    (∀ errs, s.withyErrs = src :: errs → ∃ t, exec .withyErrorReturn s = .next t ∧ t.withyErrs = errs ∧
      t.regs = (s.bump (match src.2 with | .d => R.WYERRD src.1 | .t => R.WYERRT src.1)).regs ∧
      ∃ r, t.reports = s.reports ++ [r] ∧ r.cls = .contained ∧ r.det = 0x31 ∧ r.party = ctxParty src.2)

/-- GO loads the shadow set, a free register set takes it; a GO to an owned or pending channel is refused (R467, R469,
R476, R480, R483, R485). Rests on log entry 38, the model's reading or choice. -/
def Obligations.DmaListStartAndAbort : Prop :=
  ∀ (req : Req) (ch : ChanId) (s : State),
    (s.unarmed → s.reaches req (R.DMACTL ch) →
      (chanOwner s ch = none → (s.chan ch).shadow = none → bitOf s.fenceChans ch = false → exec (.dmactlGo req ch) s =
        .next (s.setChan ch { s.chan ch with
          shadow := some ⟨s.wideGet 7 (0x100 + ch), s.fget (R.DMASNENT_SNENT ch) + 1⟩ })) ∧
      (chanOwner s ch ≠ none ∨ (s.chan ch).shadow ≠ none → exec (.dmactlGo req ch) s =
        .next (s.reportFrom .notice 0x30 ch 0x10 (optParty (chanOwner s ch)) 9 0 (s.endpoint 0) false))) ∧
    (∀ l, (s.chan ch).shadow = some l → (s.chan ch).cur = none → chanRuns s ch = true →
      exec (.dmaListStart ch) s = .next (s.setChan ch { s.chan ch with
        shadow := none
        cur := some { list := l, cfg := s.rd (R.DMACFG ch), sig := s.rd (R.DMASIG ch), acc := 512,
                      accAt := s.clk.tenths } })) ∧
    (s.reaches req (R.DMACTL ch) → (∀ r, (s.chan ch).cur = some r → r.moved = 0) →
      ∃ t, exec (.dmactlAbort req ch) s = .next t ∧ (t.chan ch).cur = none ∧ (t.chan ch).shadow = none ∧
        (let l := (s.chan ch).flying ++ (s.chan ch).cur.elim [] DmaRun.bursts
         let shape (b : Burst) : Extent × Nat × Nat × List Nat × Option Nat := (b.ext, b.off, b.bytes.length, b.bad, b.req);
         (t.chan ch).flying.map shape = l.map shape ∧ (∀ b ∈ (t.chan ch).flying, b.told = true) ∧
         ((∀ r, (s.chan ch).cur = some r → r.allSrcs = []) →
           (t.chan ch).flying = l.map fun b => { b with told := true })) ∧ (t.chan ch).toldReads = readsOut s ch ∧
        (t.rd (R.DMADISC ch)).toNat = min 0xFFFFFFFF ((s.rd (R.DMADISC ch)).toNat +
          (if (s.chan ch).cur.isSome then 1 else 0) + (if (s.chan ch).shadow.isSome then 1 else 0)) ∧
        (∀ o, o ≠ R.DMADISC ch → t.rd o = s.rd o) ∧ t.ctrs = s.ctrs ∧ t.out = s.out ∧ t.mem = s.mem)

/-- A channel reads its list's header, moves a burst between local stores, and completes its write (R470, R471, R473,
R481, R482, R483, R484). Rests on log entries 7, 38, the model's reading or choice. -/
def Obligations.DmaProgress : Prop :=
  ∀ (ch : ChanId) (r : DmaRun) (s : State), s.unarmed → chanOwner s ch = none → (s.chan ch).cur = some r →
    chanRuns s ch = true →
    (r.fetched = 0 → r.srcs = [] → 3 ≤ r.list.nent → r.list.addr % 16 = 0 →
      (∀ k, k < 16 → ∃ c, tierOf (r.list.addr + k) = some (.ls c)) → s.poisoned r.list.addr 16 = false →
      ofLe (s.ld (r.list.addr + 8) 8) = 0x80000000 * 2 ^ 32 → ofLe (s.ld r.list.addr 8) < 2 ^ 48 →
      ∃ t, exec (.dmaEntryFetch ch) s = .next t ∧ t.mem = s.mem ∧
        (t.chan ch).cur = some { r with fetched := 1, total := ofLe (s.ld r.list.addr 8) }) ∧
    (fetchOk r = true → r.list.nent < 3 → r.moved = 0 → bitOf r.cfg.toNat 14 = false →
      ∃ t, exec (.dmaEntryFetch ch) s = .next t ∧ (t.chan ch).cur = none ∧ t.fget (R.DMASTAT_ERRCODE ch) = 2 ∧
        t.fget (R.DMASTAT_ERR ch) = 1 ∧ t.mem = s.mem ∧
        ∃ q, t.reports = s.reports ++ [q] ∧ q.cls = .contained ∧ q.det = 0x30 ∧ q.cause = 2 ∧ q.party = .host) ∧
    (∀ a d, r.srcs = [a] → r.dsts = [d] → a.remote = false → d.remote = false → d.fence = false → r.fetched = r.list.nent →
      0 < r.fetched → r.readReq = none → r.srcPos = 0 → r.dstPos = 0 → r.inbuf = [] → r.bursts = [] → r.moved = 0 → a.len = d.len → r.total = d.len →
      0 < d.len → d.addr % 256 + d.len ≤ 256 → 512 ≤ r.units s.clk.tenths →
      (∀ k, k < a.len → ∃ c, tierOf (a.addr + k) = some (.ls c)) → extentOk s none a = true → extentOk s none d = true →
      (∀ w, w ∈ s.poison → 4 * w + 4 ≤ a.addr / 64 * 64 ∨ a.addr + a.len + 64 ≤ 4 * w) →
      ∃ t r', exec (.dmaBurst ch) s = .next t ∧ t.mem = s.mem ∧ (t.chan ch).cur = some r' ∧ r'.moved = d.len ∧
        r'.bursts = [⟨d, 0, s.ld a.addr a.len, [], none, false⟩] ∧ r'.srcs = [] ∧ r'.dsts = []) ∧
    (∀ b, (s.chan ch).flying = [] → r.bursts = [b] → b.bytes ≠ [] → b.req = none → b.bad = [] → b.bytes.length + r.done < r.total →
      r.half = true → r.fetched < r.list.nent → (∀ k, k < b.bytes.length → ∃ c, tierOf (b.ext.addr + b.off + k) = some (.ls c)) →
      ∃ t, exec (.dmaWriteComplete ch) s = .next t ∧
        (∀ k, k < b.bytes.length → t.ld (b.ext.addr + b.off + k) 1 = [b.bytes.getD k 0]) ∧
        (∀ o, o < b.ext.addr + b.off ∨ b.ext.addr + b.off + b.bytes.length ≤ o → t.ld o 1 = s.ld o 1) ∧
        (t.chan ch).cur = some { r with bursts := [], done := r.done + b.bytes.length })

/-- The lottery: no request, one request, no tickets, and a draw by the LFSR; ARBSEED loads 0 as 1 (R497, R493, R494,
R496, R724). Rests on log entry 39, the model's reading or choice. -/
def Obligations.ArbiterLottery : Prop :=
  ∀ (p : ArbId) (s : State), s.grave = false → (s.arb p).resumeAt = [] →
    let lsb := (s.rd (R.ARBSEED p)).getLsbD 0
    let max := s.fget (R.ARBCFG_GRANTMAX p)
    let v := if lsb then (s.rd (R.ARBSEED p) >>> 1) ^^^ 0x80200003#32 else s.rd (R.ARBSEED p) >>> 1
    exec (.lotteryDecision p []) s = .next (s.setArb p { s.arb p with drawn := none, drawnTo := none }) ∧
    (∀ r, schedReq s r.who = true →
      exec (.lotteryDecision p [r]) s = .next (s.setArb p { s.arb p with drawn := none, drawnTo := none })) ∧
    (∀ r q : ArbReq, q.input = r.input → exec (.lotteryDecision p [r, q]) s = exec (.lotteryDecision p [r]) s) ∧
    (∀ r, fencedReq s r.who = false → schedReq s r.who = false →
      exec (.lotteryDecision p [r]) s =
        .next (s.setArb p { s.arb p with drawn := some (r.input, []), drawnTo := some r.who, drawnMax := max })) ∧
    (∀ r q, fencedReq s r.who = false → fencedReq s q.who = false → schedReq s r.who = false → schedReq s q.who = false →
      r.input < q.input →
      let n := tickets s r.who
      let m := tickets s q.who
      let first := v.toNat / 65536 * (n + m) / 65536 < n
      (n + m = 0 → exec (.lotteryDecision p [q, r]) s =
        .next (s.setArb p { s.arb p with drawn := some (r.input, []), drawnTo := some r.who, drawnMax := max })) ∧
      (n + m ≠ 0 → exec (.lotteryDecision p [q, r]) s = .next ((s.wr (R.ARBSEED p) v).setArb p { s.arb p with
        drawn := some (if first then (r.input, [q.input]) else (q.input, [r.input]))
        drawnTo := some (if first then r.who else q.who), drawnMax := max }))) ∧
    (∀ req x, s.reaches req (R.ARBSEED p) →
      exec (.arbseedWrite req p x) s = .next (s.wr (R.ARBSEED p) (if x = 0 then 1 else x)))

/-- A burst boundary: scheduled traffic first, the grant goes on, a drawn winner takes it, losers back off (R494, R495,
R499, R500, R724, R796). Rests on log entry 39, the model's reading or choice. -/
def Obligations.ArbiterBoundary : Prop :=
  ∀ (p : ArbId) (sched waiting : List Nat) (s : State), s.grave = false →
    let a := s.arb p
    let sound (w : Option ArbWho) : Prop := ∀ v, w = some v → fencedReq s v = false
    let run := exec (.burstBoundary p sched waiting) s
    (∀ i, sched = [i] → a.grant = none →
      run = .next (s.setArb p { a with
          grant := none, grantTo := none, drawn := none, drawnTo := none, lastSched := some i })) ∧
    (∀ i g k, sched = [i] → a.grant = some (g, k + 1) → waiting.contains g = true →
      run = .next ((s.bump (R.ARBREVOKE p)).setArb p { a with
          grant := none, grantTo := none, drawn := none, drawnTo := none, lastSched := some i })) ∧
    (∀ g k, sched = [] → a.grant = some (g, k + 1) → waiting.contains g = true → sound a.grantTo →
      run = .next (s.setArb p { a with grant := some (g, k) })) ∧
    (∀ g k v, sched = [] → a.grant = some (g, k + 1) → waiting.contains g = true → a.grantTo = some v →
      fencedReq s v = true → a.drawn = none →
      run = .next ((s.bump (R.ARBREVOKE p)).setArb p { a with grant := none, grantTo := none })) ∧
    (sched = [] → a.grant = none → a.drawn = none → run = .next (s.setArb p { a with grant := none, grantTo := none })) ∧
    (∀ w l, sched = [] → a.grant = none → a.drawn = some (w, [l]) → w ≠ l → waiting.contains w = true → sound a.drawnTo →
      ∃ t, run = .next t ∧ (t.arb p).grant = some (w, a.drawnMax) ∧ (t.arb p).drawn = none ∧
        tget 0 (t.arb p).losses w = 0 ∧ tget 0 (t.arb p).losses l = tget 0 a.losses l + 1 ∧
        tget 0 (t.arb p).resumeAt l = s.clk.tenths / 5 + min 1024 (4 * 2 ^ tget 0 a.losses l) ∧
        t.regs = (s.bump (R.ARBGRANT p)).regs) ∧
    (∀ i, ∃ t, exec (.backoffExpiry p i) s = .next t ∧ tget 0 (t.arb p).resumeAt i = 0 ∧
      (∀ j, j ≠ i → tget 0 (t.arb p).resumeAt j = tget 0 a.resumeAt j) ∧
      (s.clk.present = true → 5 * tget 0 a.resumeAt i ≤ t.clk.tenths) ∧
      (onGrid (5 * tget 0 a.resumeAt i) ≤ s.clk.tenths → ({ t with arbs := s.arbs } : State) = s))

/-- RNDCTL.RUN: where the first boundary falls, ARMED with SRC = 1, the stop at the next boundary; release of DHELD (R91,
R94). Rests on log entries 3, 68, the model's reading or choice. -/
def Obligations.RoundsStartAndStop : Prop :=
  ∀ (req : Req) (s : State) (v : W32),
    (s.reaches req R.RNDCTL → s.fget R.RNDCTL_RUN = 0 → s.fget R.RNDSTAT_STATE = 0 →
      ∃ t, exec (.roundsStart req) s = .next t ∧ t.fget R.RNDCTL_RUN = 1 ∧ t.round.num = s.round.num ∧
        (s.fget R.RNDCTL_SRC = 1 → t.fget R.RNDSTAT_STATE = 1 ∧ t.round = s.round) ∧
        (s.fget R.RNDCTL_SRC = 0 → ∃ f, t.round.firstAt = some f ∧
          let d := s.devTenths + (f - s.clk.tenths)
          s.clk.tenths ≤ f ∧ d % 10000 = 0 ∧
          (s.fget R.RNDCTL_OUTMODE ≠ 1 → s.devTenths < d ∧ d ≤ s.devTenths + 10000) ∧
          (s.fget R.RNDCTL_OUTMODE = 1 → s.devTenths + s.fget R.RNDSYNC_OUTLEAD * 10 ≤ d ∧
            d < s.devTenths + s.fget R.RNDSYNC_OUTLEAD * 10 + 10000))) ∧
    (s.reaches req R.RNDCTL → s.unarmed →
      (s.anyJob = false → s.round.win.isSome = true →
        exec (.roundsStop req) s =
          .next { s.fset R.RNDCTL_RUN 0 with round := { s.round with stopping := true } }) ∧
      (s.anyJob = false → s.round.win = none → ∃ t, exec (.roundsStop req) s = .next t ∧
        t.fget R.RNDCTL_RUN = 0 ∧ t.fget R.RNDSTAT_STATE = 0 ∧ t.round = { s.round with firstAt := none }) ∧
      (s.anyJob = true → ∃ t, exec (.roundsStop req) s = .next t ∧ t.fget R.RNDCTL_RUN = s.fget R.RNDCTL_RUN ∧
        t.fget R.RNDSTAT_BUSYREF = 1 ∧ t.round = s.round)) ∧
    (s.reaches req R.RNDPER → s.unarmed → s.fget R.RNDSTAT_STATE = 0 → s.shadow = [] → 100 ≤ v.toNat →
      v.toNat ≤ 10000 → s.anyJob = false → 2 * s.fget R.RNDWIN_DLEN ≤ v.toNat →
      ∃ t, exec (.registerWrite req R.RNDPER v 15) s = .next t ∧ t.fget R.RNDPER_PERIOD = v.toNat) ∧
    (s.reaches req R.RNDSTAT → exec (.dovrRelease req) s =
      .next ((s.fset R.RNDSTAT_DOVR 0).fset R.RNDSTAT_DHELD 0))

/-- A Round boundary: number, stamp, window, marks, settings in force, harts started; the first one; a stop (R47, R48,
R58, R82, R87, R91, R92, R94, R95, R265). Rests on log entries 3, 68, 83, the model's reading or choice. -/
def Obligations.RoundBoundaries : Prop :=
  ∀ s : State, s.clk.present = true → s.grave = false →
    let opened (t : State) : Prop :=
      t.round.stamp = t.now ∧ t.round.stampTenths = t.clk.tenths ∧ t.round.win = some (firstWin t) ∧
      t.round.outmode = s.fget R.RNDCTL_OUTMODE ∧ t.round.sync = s.rd R.RNDSYNC ∧ t.round.firstAt = none ∧
      t.round.pulsed = false ∧ (∀ c x, (t.cc c x).marks = 0) ∧
      (s.led.live = false → t.mem = s.mem) ∧ ∀ x j, s.job x = some j → t.job x = some { j with started := true } ∧
        ∀ c ∈ namedCores j, j.started = false → (s.cc c x).hst = .waiting →
          (t.cc c x).hst = .running ∧ (t.cc c x).pc = (s.cc c x).pc
    (∀ w, s.round.firstAt = none → s.round.win = some w → s.fget R.RNDCTL_SRC = 0 ∨ s.fget R.RNDSTAT_STATE = 3 →
      (s.round.stopping = false → ∃ t, exec .roundBoundary s = .next t ∧ opened t ∧ t.round.num = s.round.num + 1 ∧
        t.fget R.RNDSTAT_STATE = s.fget R.RNDSTAT_STATE ∧
        (2 * s.fget R.RNDWIN_DLEN ≤ s.fget R.RNDPER_PERIOD →
          s.clk.tenths ≤ s.round.stampTenths + s.fget R.RNDPER_PERIOD * 10000 →
          s.fget R.RNDCTL_SRC = 0 ∨ s.round.edgeDone = true →
          t.round.stampTenths = onGrid (s.round.stampTenths + s.fget R.RNDPER_PERIOD * 10000))) ∧
      (s.round.stopping = true → ∃ t, exec .roundBoundary s = .next t ∧ t.round.win = none ∧
        t.round.stopping = false ∧ t.fget R.RNDSTAT_STATE = 0 ∧ t.round.num = s.round.num ∧
        ∀ c x, (t.cc c x).marks = 0)) ∧
    (∀ f, s.round.firstAt = some f → ∃ t, exec .roundBoundary s = .next t ∧ opened t ∧ t.round.num = s.round.rndStart ∧
      t.now = s.round.dtStart.toNat ∧ t.fget R.RNDSTAT_STATE = 2 ∧ t.clk.tenths = max s.clk.tenths (onGrid f))

/-- A window closes: marks checked, overruns recorded, the switch; its completion; re-alignment of context T (R49, R58,
R60, R62, R64, R66, R71, R73, R75, R77, R79). Rests on log entries 3, 68, the model's reading or choice. -/
def Obligations.WindowsAndSwitches : Prop :=
  ∀ (c : CoreId) (die : DieId) (s : State),
    (∀ w, s.clk.present = true → s.grave = false → s.round.win = some w → w < s.fget R.RNDWIN_TWCNT + 1 →
      ∃ t, exec .windowBoundary s = .next t ∧ t.round.win = some (w + 1) ∧ t.round.num = s.round.num ∧
        s.round.stampTenths + winEnd s w * 10000 ≤ t.clk.tenths ∧ t.mem = s.mem ∧
        (overran s w = true → w = 0 → t.fget R.RNDSTAT_DOVR = 1 ∧
          (t.rd R.DOVCNT).toNat = min 0xFFFFFFFF ((s.rd R.DOVCNT).toNat + 1) ∧
          t.fget R.RNDSTAT_DHELD = (if s.fget R.RNDCTL_DOVSTOP = 1 then 1 else s.fget R.RNDSTAT_DHELD)) ∧
        (overran s w = true → w ≠ 0 → t.fget R.RNDSTAT_TOVR = 1 ∧
          (t.rd R.TOVCNT).toNat = min 0xFFFFFFFF ((s.rd R.TOVCNT).toNat + 1)) ∧
        (overran s w = false → s.unarmed → t.rd R.DOVCNT = s.rd R.DOVCNT ∧ t.rd R.TOVCNT = s.rd R.TOVCNT ∧
          t.reports = s.reports ∧
          (w ≠ 0 ∨ (∀ k, (s.core k).switch = none) → t.rd R.RNDSTAT = s.rd R.RNDSTAT)) ∧
        (∀ t0, w = 0 → (s.core c).switch = some (.d, t0) → 20000 < t.clk.tenths - t0 →
          t.fget R.RNDSTAT_LATEOPEN = 1 ∧ min 0xFFFFFFFF ((s.rd R.SWLCNT).toNat + 1) ≤ (t.rd R.SWLCNT).toNat) ∧
        ∀ k, (t.core k).infl = (s.core k).infl ∧ (t.core k).switch =
          if w ≠ 0 then (s.core k).switch
          else if (s.core k).infl.any (fun e => e.2.ctx == Ctx.d) then some (Ctx.t, t.clk.tenths) else none) ∧
    (∀ x t0, s.grave = false → (s.core c).switch = some (x, t0) → (s.core c).infl.any (fun e => e.2.ctx == other x) = false →
      ∃ t, exec (.switchComplete c) s = .next t ∧ t.core c = { s.core c with switch := none } ∧
        (s.clk.tenths - t0 ≤ 20000 → t.regs = s.regs) ∧
        (20000 < s.clk.tenths - t0 → (t.rd R.SWLCNT).toNat = min 0xFFFFFFFF ((s.rd R.SWLCNT).toNat + 1) ∧
          (x = .d → t.fget R.RNDSTAT_LATEOPEN = 1) ∧ ∀ o, o ≠ R.SWLCNT → o ≠ R.RNDSTAT → t.rd o = s.rd o)) ∧
    (s.grave = false → bitOf s.round.realignPend die = true → dieBusyT s die = false →
      ∃ t, exec (.flowRealignT die) s = .next t ∧ bitOf t.round.realignPend die = false ∧
        (∀ n, t.ctr n = if n ∈ flowCtrs s .t die then { s.ctr n with val := (s.ctr n).base, bad := false }
          else s.ctr n) ∧
        ((∃ n ∈ flowCtrs s .t die, (s.ctr n).residue ≠ 0) → t.fget R.RNDSTAT_DRIFT = 1) ∧
        t.mem = s.mem ∧ t.cores = s.cores)

/-- ROUND_IN edges in RUNNING, HOLDOVER and ARMED, a missed edge, and the ROUND_OUT pulse (R83, R84, R85, R86, R87, R88,
R89). Rests on log entries 3, 69, the model's reading or choice. -/
def Obligations.RoundInputEdges : Prop :=
  ∀ (dt : Nat) (s : State), s.clk.present = true → s.grave = false →
    let e := s.round.stampTenths + s.fget R.RNDPER_PERIOD * 10000
    let g := max 13 (s.round.sync.toNat % 2 ^ 12) * 10
    let lim := s.round.sync.toNat / 2 ^ 12 % 16
    let at_ := onGrid (s.clk.tenths + dt)
    let still : Prop := ∀ w, s.round.win = some w → w < lastWin s → at_ < s.round.stampTenths + winEnd s w * 10000
    let strays (t : State) : Prop := t.round.num = s.round.num ∧
      (t.rd R.STRAYCNT).toNat = min 0xFFFFFFFF ((s.rd R.STRAYCNT).toNat + 1) ∧ t.fget R.RNDSTAT_STRAY = 1 ∧
      t.fget R.RNDSTAT_STATE = s.fget R.RNDSTAT_STATE ∧ ∃ r ∈ t.reports, r.cls = .notice ∧ r.det = 0x04 ∧ r.cause = 1 ∧
        (still → t.reports = s.reports ++ [r] ∧ t.round.win = s.round.win)
    (s.fget R.RNDCTL_SRC = 1 →
      (s.fget R.RNDSTAT_STATE = 1 → ∃ t, exec (.roundInEdge dt) s = .next t ∧ t.round.num = s.round.rndStart ∧
        t.fget R.RNDSTAT_STATE = 2 ∧ t.clk.tenths = at_ ∧ t.round.win = some (firstWin t)) ∧
      (s.fget R.RNDSTAT_STATE = 2 → s.round.stopping = false →
        (s.unarmed → e ≤ at_ + g → at_ ≤ e + g →
          ∃ t, exec (.roundInEdge dt) s = .next t ∧ t.round.num = s.round.num + 1 ∧ t.round.missRun = 0 ∧
            t.fget R.RNDSTAT_STATE = 2 ∧ t.round.win = some (firstWin t) ∧ at_ ≤ t.clk.tenths) ∧
        (at_ + g < e → ∃ t, exec (.roundInEdge dt) s = .next t ∧ strays t) ∧
        ∃ t, exec .missedEdge s = .next t ∧ t.round.num = s.round.num + 1 ∧ t.round.missRun = s.round.missRun + 1 ∧
          (t.rd R.MISSCNT).toNat = min 0xFFFFFFFF ((s.rd R.MISSCNT).toNat + 1) ∧ t.fget R.RNDSTAT_MISS = 1 ∧
          (∃ r, r ∈ t.reports ∧ r.cls = .notice ∧ r.det = 0x04 ∧ r.cause = 2) ∧
          e + g ≤ t.round.stampTenths ∧
          t.fget R.RNDSTAT_STATE = if lim ≠ 0 ∧ lim ≤ s.round.missRun + 1 then 3 else 2) ∧
      (s.fget R.RNDSTAT_STATE = 3 → at_ ≤ e →
        (s.unarmed → s.round.edgeDone = true → s.round.edgeNext = false → e ≤ at_ + g →
          ∃ t, exec (.roundInEdge dt) s = .next t ∧ t.round.missRun = 0 ∧
            (s.round.goodRun < 3 → t.fget R.RNDSTAT_STATE = 3 ∧ t.round.goodRun = s.round.goodRun + 1 ∧
              t.round.num = s.round.num) ∧
            (3 ≤ s.round.goodRun → s.round.stopping = false → t.fget R.RNDSTAT_STATE = 2 ∧
              t.round.num = s.round.num + 1)) ∧
        (s.unarmed → s.round.edgeDone = false → at_ ≤ s.round.stampTenths + g →
          ∃ t, exec (.roundInEdge dt) s = .next t ∧ t.round.missRun = 0 ∧ t.round.num = s.round.num ∧
            t.round.edgeDone = true ∧ (3 ≤ s.round.goodRun → t.fget R.RNDSTAT_STATE = 2) ∧
            (s.round.goodRun < 3 → t.fget R.RNDSTAT_STATE = 3 ∧ t.round.goodRun = s.round.goodRun + 1)) ∧
        (s.round.edgeDone = true → at_ + g < e → ∃ t, exec (.roundInEdge dt) s = .next t ∧ strays t ∧
          t.round.goodRun = 0))) ∧
    (∀ w, s.round.firstAt = none → s.round.win = some w → s.round.stopping = false → s.round.outmode = 1 →
      s.round.pulsed = false → s.clk.tenths ≤ e → ∃ t, exec .roundOutPulse s = .next t ∧
        t.out = s.out ++ [.roundOut t.now] ∧ t.round.pulsed = true ∧
        t.clk.tenths = max s.clk.tenths (onGrid (e - s.round.sync.toNat / 2 ^ 16 % 2 ^ 10 * 10)) ∧
        t.round.num = s.round.num)

/-- Ramp steps of an engine, the debug window, wait timeouts, and the idle counters' wrap and clear (R187, R188, R189,
R198, R199, R285, R450, R452, R677, R686). Rests on log entries 3, 29, 70, the model's reading or choice. -/
def Obligations.RampsDebugWindowAndTimers : Prop :=
  ∀ (c : CoreId) (eng : EngId) (x : Ctx) (s : State),
    (s.grave = false → s.fget (R.WVSTAT_PSTATE c eng) = 1 → ∃ t, exec (.rampdownStart c eng) s = .next t ∧
      t.fget (R.WVSTAT_PSTATE c eng) = (if s.fget (R.WVCFG_RAMPT c eng) = 0 then 3 else 2) ∧
      t.fget (R.WVSTAT_RSTEP c eng) = 0 ∧ pwrN t c eng = s.fget (R.WVCFG_RAMPN c eng) + 1) ∧
    (s.grave = false → ∃ t, exec (.rampStep c eng) s = .next t ∧
      let r := s.fget (R.WVSTAT_RSTEP c eng)
      (s.fget (R.WVSTAT_PSTATE c eng) = 2 ∨ s.fget (R.WVSTAT_PSTATE c eng) = 4 → r + 1 < pwrN s c eng →
        t.fget (R.WVSTAT_PSTATE c eng) = s.fget (R.WVSTAT_PSTATE c eng) ∧ t.fget (R.WVSTAT_RSTEP c eng) = r + 1) ∧
      (pwrN s c eng ≤ r + 1 →
        (s.fget (R.WVSTAT_PSTATE c eng) = 2 → t.fget (R.WVSTAT_PSTATE c eng) = 3) ∧
        (s.fget (R.WVSTAT_PSTATE c eng) = 4 → busy s c eng = true → t.fget (R.WVSTAT_PSTATE c eng) = 0))) ∧
    (∀ col : XReg, (accessEnds s .host (R.WVDBGDAT c col) false).isNone = true → s.unarmed →
      (s.fget (R.CPCTL_DBGEN c) = 1 → exec (.wvdbgdatRead .host c col) s = .next { s with reply := .data (leBytes 4
        (tget 0 (s.core c).mats (s.fget (R.WVDBGSEL_ENG c) * 65536 + (s.fget (R.WVDBGSEL_MAT c) * 1024 +
          32 * s.fget (R.WVDBGSEL_ROW c) + col))).toNat) }) ∧
      (s.fget (R.CPCTL_DBGEN c) = 0 → ∃ t r, exec (.wvdbgdatRead .host c col) s = .next t ∧
        t.reply = .data [0, 0, 0, 0] ∧ t.reports = s.reports ++ [r] ∧ r.cls = .notice ∧ r.det = 0x0A ∧
        t.cores = s.cores ∧ t.regs = s.regs)) ∧
    (∀ (w : WaiterId) e, (s.cc c x).waits.find? (·.1 == w.val) = some e → waitCounts s c x w = true → s.grave = false →
      s.clk.present = true → s.unarmed →
      let due := s.clk.tenths + (e.2.limit - e.2.age)
      (ownEnd s x < due → exec (.waitTimeout c x w) s = .next s) ∧
      (due ≤ ownEnd s x → ∃ t, exec (.waitTimeout c x w) s = .next t ∧
        due ≤ t.clk.tenths ∧ t.clk.tenths < due + 64 ∧ (t.cc c x).issueHalt = true ∧
        (t.cc c x).hst = (if (s.cc c x).hst = .notLoaded then .notLoaded else .halted) ∧
        (t.rd (R.SNTOCNT (dieOf c))).toNat = min 0xFFFFFFFF ((s.rd (R.SNTOCNT (dieOf c))).toNat + 1) ∧
        (tget (0, 0) (t.cc c x).snap w).1.toNat / 2 ^ 63 = 1 ∧
        (∀ q, t.queue c x q = s.queue c x q) ∧
        (∃ r ∈ t.reports, r.cls = .contained ∧ r.party = ctxParty x ∧
          r.cause = (t.rd (match x with | .d => R.CPHALTD c | .t => R.CPHALTT c)).toNat / 2 ^ 24 ∧
          ((∀ v, s.round.win = some v → due < s.round.stampTenths + winEnd s v * 10000) → t.reports = s.reports ++ [r])) ∧
        let h := (t.rd (match x with | .d => R.CPHALTD c | .t => R.CPHALTT c)).toNat
        (w.val < 6 → h / 2 ^ 24 = 0x41 ∧ bitsOf h 21 3 = 1 + w.val) ∧
        (w.val = 6 → bitsOf h 21 3 = 0 ∧ h / 2 ^ 24 =
          match (s.cc c x).stall with | .scwait _ _ _ => 0x08 | _ => 0x07))) ∧
    (∀ req, s.reaches req (R.IDLCTL c) → ∃ t, exec (.idlctlClear req c x) s = .next t ∧
      (∀ k, tget (0 : BitVec 48) (t.cc c x).idle k = 0) ∧ t.cc c (other x) = s.cc c (other x) ∧ t.regs = s.regs ∧
      (∀ c', c' ≠ c.val → t.core c' = s.core c') ∧ t.cc c x = { s.cc c x with idle := (t.cc c x).idle }) ∧
    (∀ k : Fin 8, s.grave = false → (tget (0 : BitVec 48) (s.cc c x).idle k).toNat = 2 ^ 48 - 1 →
      ∃ t, exec (.idleCounterWrap c x k) s = .next t ∧ tget (0 : BitVec 48) (t.cc c x).idle k = 0 ∧
        (∀ j, j ≠ k.val → tget (0 : BitVec 48) (t.cc c x).idle j = tget 0 (s.cc c x).idle j) ∧
        bitOf (t.fget (match x with | .d => R.IDLWRAP_WRAPD c | .t => R.IDLWRAP_WRAPT c)) k = true)

/-- GO, UNLOAD, the loader's answer and the end of an unload: what is refused, what is granted, what goes (R404, R405,
R406, R414, R434, R457, R458). Rests on log entries 64, 65, 66, the model's reading or choice. -/
def Obligations.LoadAndUnload : Prop :=
  ∀ (req : Req) (x : Ctx) (s : State),
    (s.reaches req R.JLCTL → s.unarmed → s.fget R.JLCTL_CTX = ctxNum x →
      (s.fget R.JLSTAT_BUSY = 0 → ∃ t, exec (.jlctlGo req) s = .next t ∧ t.fget R.JLSTAT_BUSY = 1 ∧
        t.fget R.JLSTAT_CTX = ctxNum x ∧ t.loader = some ⟨x, s.wideGet 2 1, false, true⟩ ∧
        { t with regs := s.regs, loader := s.loader } = s) ∧
      (s.fget R.JLSTAT_BUSY = 1 → ∃ r, exec (.jlctlGo req) s = .next { s with reports := s.reports ++ [r] } ∧
        exec (.jlctlUnload req) s = .next { s with reports := s.reports ++ [r] } ∧ r.cls = .notice ∧ r.det = 0x02) ∧
      (s.fget R.JLSTAT_BUSY = 0 → s.job x = none → ∃ t, exec (.jlctlUnload req) s = .next t ∧ t.loader = none ∧
        t.fget R.JLSTAT_BUSY = 0 ∧ t.fget R.JLSTAT_DONE = 1 ∧ t.fget R.JLSTAT_CODE = 0 ∧
        { t with regs := s.regs, loader := s.loader } = s) ∧
      (∀ j, s.fget R.JLSTAT_BUSY = 0 → s.job x = some j → ∃ t, exec (.jlctlUnload req) s = .next t ∧
        t.fget R.JLSTAT_BUSY = 1 ∧ t.job x = some j ∧ t.job (other x) = s.job (other x) ∧
        bitOf t.unloads (ctxNum x) = true ∧
        (∀ c ∈ namedCores j, (t.cc c x).hst = .notLoaded ∧ (t.cc c x).stall = .none ∧
          ∀ q, q < 6 → t.queue c x q = []) ∧ ∀ c q, t.queue c (other x) q = s.queue c (other x) q)) ∧
    (∀ a, s.loader = some ⟨x, a, false, true⟩ → s.grave = false →
      (∀ code item, fitCheck s x a = .inl (code, item) → ∃ t, exec .loadDone s = .next t ∧ t.loader = none ∧
        t.fget R.JLSTAT_BUSY = 0 ∧ t.fget R.JLSTAT_DONE = 1 ∧ t.fget R.JLSTAT_CTX = ctxNum x ∧
        t.fget R.JLSTAT_CODE = code % 256 ∧ t.fget R.JLSTAT_ITEM = item % 65536 ∧
        (∀ o, o ≠ R.JLSTAT → t.rd o = s.rd o) ∧ { t with regs := s.regs, loader := s.loader } = s) ∧
      (s.stopped = true → fitCheck s x a = .inl (2, 0)) ∧
      (∀ h, fitCheck s x a = .inr h → ∃ t j, exec .loadDone s = .next t ∧ t.loader = none ∧
        t.fget R.JLSTAT_BUSY = 0 ∧ t.fget R.JLSTAT_DONE = 1 ∧ t.fget R.JLSTAT_CODE = 0 ∧ t.job x = some j ∧
        j.recs = h.recs ∧ j.started = false ∧ t.job (other x) = s.job (other x) ∧
        (∀ c ∈ namedCores j, (t.cc c x).hst = .waiting ∧ (t.cc c x).pc = BitVec.ofNat 64 (j.range 0x19 c).1 ∧
          (t.cc c x).cq = [] ∧ ∀ q, t.queue c x q = []) ∧
        ∀ n ∈ recCtrs h.recs, (t.ctr n).owner = some x ∧ (t.ctr n).bad = false ∧ (t.ctr n).satf = false)) ∧
    (∀ j, s.grave = false → bitOf s.unloads (ctxNum x) = true → bitOf s.unloads (ctxNum (other x)) = false → ctxDrained s x = true →
      s.job x = some j → (x = .d → s.led.live = false ∧ s.led.queue = [] ∧ s.led.signing = none) →
      ∃ t, exec .unloadDrained s = .next t ∧ t.job x = none ∧ t.job (other x) = s.job (other x) ∧
        bitOf t.unloads (ctxNum x) = false ∧ (∀ n, (t.ctr n).owner ≠ some x) ∧
        (∀ a, s.loader = some ⟨x, a, true, true⟩ → t.loader = some ⟨x, a, false, true⟩) ∧
        (∀ a, s.loader = some ⟨x, a, true, false⟩ → t.loader = none ∧ t.fget R.JLSTAT_DONE = 1 ∧
          t.fget R.JLSTAT_CODE = 0))

/-- The step unit: trigger, the verdict and every register of a commit, and a vote that does not arrive (R518, R520, R521,
R522). Rests on log entries 3, 52, the model's reading or choice. -/
def Obligations.StepTriggerVoteAndCommit : Prop :=
  ∀ s : State,
    (s.fget R.STEPCTL_ENABLE = 1 → s.loaded .t = true → s.step.voteAt = none → s.stopped = false →
      let n := s.fget R.STEPCFG0_TRIGCTR
      let thr := s.fget R.STEPCFG1_TRIGTHR
      let k := s.ctr n
      let b := binding s .t (s.fget R.STEPCFG2_VGRP)
      k.met thr = true → ∃ t, exec .stepTrigger s = .next t ∧ t.step.voteAt = some s.round.num ∧
        t.step.num = s.step.num ∧
        (b.isEmpty = true ∨ bSrcSu b = false ∨ bLsend b = false → s.unarmed → k.mode = 0 → k.bad = false → k.owner = some .t →
          t.ctr n = { k with val := BitVec.ofNat 32 (k.val.toNat - thr) } ∧ (∀ m, m ≠ n → t.ctr m = s.ctr m) ∧
          t.fget R.STEPSTAT_NFACC = 0 ∧ t.mem = s.mem ∧ t.cores = s.cores ∧ t.reports = s.reports)) ∧
    (∀ v c a, s.step.result = some (v, c) → s.step.voteAt = some a → s.unarmed → s.grave = false →
      let reason := if v ≠ 0 then 1 else if c < s.fget R.STEPCFG1_NVOTE then 2 else 0
      let lse := signedOf (s.fget R.LSSTAT_LSE) 8
      let run := (s.fget R.LSSTAT_RUNCNT + 1) % 65536
      ∃ t, exec .stepCommit s = .next t ∧ t.step.num = s.step.num + 1 ∧
        t.step.app = (if reason = 0 then s.step.app + 1 else s.step.app) ∧ t.step.voteAt = none ∧ t.step.result = none ∧
        t.step.committed = true ∧ t.step.commitAt = t.now ∧
        t.fget R.STEPSTAT_LASTREASON = reason ∧ t.fget R.STEPSTAT_LASTSKIP = (if reason = 0 then 0 else 1) ∧
        (t.rd R.STSKIPNF).toNat = min 0xFFFFFFFF ((s.rd R.STSKIPNF).toNat + if reason = 1 then 1 else 0) ∧
        (t.rd R.STSKIPVS).toNat = min 0xFFFFFFFF ((s.rd R.STSKIPVS).toNat + if reason = 2 then 1 else 0) ∧
        (reason = 1 → signedOf (t.fget R.LSSTAT_LSE) 8 = max (lse - 1) (signedOf (s.fget R.LSCFG_LSMIN) 8) ∧
          t.fget R.LSSTAT_RUNCNT = 0) ∧
        (reason = 2 → t.fget R.LSSTAT_LSE = s.fget R.LSSTAT_LSE ∧ t.fget R.LSSTAT_RUNCNT = s.fget R.LSSTAT_RUNCNT) ∧
        (reason = 0 → run = s.fget R.LSRUN_RUN → t.fget R.LSSTAT_RUNCNT = 0 ∧
          signedOf (t.fget R.LSSTAT_LSE) 8 = min (lse + 1) (signedOf (s.fget R.LSCFG_LSMAX) 8)) ∧
        (reason = 0 → run ≠ s.fget R.LSRUN_RUN → t.fget R.LSSTAT_RUNCNT = run ∧
          signedOf (t.fget R.LSSTAT_LSE) 8 = lse) ∧
        ∀ core ∈ noteCores s, (tget 0x0F#8 t.lsLatch core).toNat = t.fget R.LSSTAT_LSE) ∧
    (s.sendPend.contains (.t, s.fget R.STEPCFG2_VGRP) = true → exec .voteTimeout s = .next s) ∧
    (∀ a, s.step.result = none → s.step.voteAt = some a → s.grave = false → a.toNat + s.fget R.STEPCFG2_VTO ≤ s.round.num.toNat →
      s.sendPend.contains (.t, s.fget R.STEPCFG2_VGRP) = false →
      ∃ t, exec .voteTimeout s = .next t ∧ t.step.num = s.step.num + 1 ∧ t.step.app = s.step.app ∧
        t.step.voteAt = none ∧ t.fget R.LSSTAT_LSE = s.fget R.LSSTAT_LSE ∧
        t.fget R.LSSTAT_RUNCNT = s.fget R.LSSTAT_RUNCNT ∧ t.fget R.STEPSTAT_VMISS = 1 ∧ t.fget R.STEPSTAT_DESYNC = 1 ∧
        t.fget R.STEPSTAT_LASTREASON = 2 ∧ t.fget R.STEPSTAT_LASTSKIP = 1 ∧
        ∃ r ∈ t.reports, r.cls = .contained ∧ r.det = 0x38 ∧ r.cause = 1 ∧ r.party = .t)

/-- Local sends, cut-offs, closes, stale returns, COLCTL.ABORT and group entries by register (R17, R633, R635, R639, R641,
R650, R652, R655, R659, R666, R679, R682). Rests on log entries 49, 51, 79, the model's reading or choice. -/
def Obligations.CollectivesRun : Prop :=
  ∀ (req : Req) (iod : IodId) (grp : GrpId) (ent : RetId) (s : State),
    (∀ x, s.stopped = false → s.unarmed →
      let b := binding s x grp
      (sendCtx s grp (fun _ b => (s.ctr (bTrigCtr b)).met (bTrigThr b)) = some x → s.fget R.COLCTL_ENABLE = 0 →
        let k := s.ctr (bTrigCtr b)
        k.mode = 0 → k.bad = false → k.owner = some x → ∃ t, exec (.localSendStart grp) s = .next t ∧
          t = { s.setCtr (bTrigCtr b) { k with val := BitVec.ofNat 32 (k.val.toNat - bTrigThr b) } with
            sendPend := s.sendPend ++ [(x, grp.val)] }) ∧
      (s.fget R.COLCTL_ENABLE = 1 → sendRoom s (bIod b) = true →
        (s.sendPend = [] ∧ sendCtx s grp (fun _ b => (s.ctr (bTrigCtr b)).met (bTrigThr b)) = some x) ∨
          (s.sendPend = [(x, grp.val)] ∧ bLsend b = true ∧ bSrcSu b = false) →
        ∃ t rest, exec (.localSendStart grp) s = .next t ∧ t.sendPend = [] ∧
          t.sends = s.sends ++ [⟨x, grp, bIod b, rest⟩] ∧
          rest.length = cdiv (bNelem b) (if bFp32 b then 60 else 120) - 1)) ∧
    (∀ q r, s.sends = q :: r →
      let b := binding s q.ctx q.grp
      (s.grave = false → q.rest = [] →
        (bSentSig b = false → exec .localSendSent s = .next { s with sends := r }) ∧
        (bSentSig b = true → exec .localSendSent s =
          .next (ctrAdd { s with sends := r } (bSentCtr b) 1 (s.endpoint 0)))) ∧
      (s.fget R.COLCTL_ENABLE = 1 → s.stopped = false → ∃ t, exec .localSendSent s = .next t ∧ t.sends = r) ∧
      (s.fget R.COLCTL_ENABLE = 0 → (∀ p ∈ s.sends, p.rest ≠ []) → exec .localSendSent s = .next s)) ∧
    (∀ (tbl : Fin 2) d u, let e := gentry s iod tbl grp
      let o := 1 - tbl.val
      let g := gentry s iod o grp
      (s.inst iod tbl grp).opn = some d → e.tagk = false → afterRound s d.tag e.cutoff = some u →
      (∀ d' u', (s.inst iod o grp).opn = some d' → g.tagk = false → afterRound s d'.tag g.cutoff = some u' →
        u < u' ∨ (u = u' ∧ tbl = 0)) → s.redWait = [] → s.grave = false →
      (e.root = true ∧ e.ar = false) ∨ (e.root = false ∧ e.up < 12 ∧ e.upalt = none) →
      ∃ t, exec (.reductionCutoff iod grp) s = .next t ∧ (t.inst iod tbl grp).opn = none ∧
        (t.inst iod tbl grp).last = some d.tag ∧ (∀ x ∈ slotsOf t e.adder, x.of e d.tag = false) ∧
        t.inst iod o grp = s.inst iod o grp ∧ (s.clk.present = true → u ≤ t.clk.tenths)) ∧
    (s.grave = false → (s.inst iod 0 grp).closing.isSome = true → ∃ t, exec (.rootClose iod grp) s = .next t ∧
      (t.inst iod 0 grp).closing = none ∧ (t.inst iod 0 grp).opn = (s.inst iod 0 grp).opn) ∧
    (∀ d u, s.grave = false → firstReturn s grp = some d →
      let i := if bDeliv (bindOf s 0 grp) then 0 else 1
      (groupEntry s grp).tagk = false → afterRound s d.tag (bRetOff (bindOf s i grp)) = some u →
      ∃ t, exec (.returnClose grp) s = .next t ∧ t.returns = tdel s.returns (retKey grp d.tag) ∧
        (hasReturned s grp d.tag = false → tget 0 t.returned grp = d.tag + 1)) ∧
    ((retEnt s ent).isEmpty = false → (s.ret ent).armed = true → (s.ret ent).complete = false →
      (s.ret ent).stale = false → s.step.committed = true → s.step.voteAt = none → s.unarmed → s.grave = false →
      ∃ t, exec (.returnStale ent) s = .next t ∧ t.ret ent = { s.ret ent with stale := true } ∧
        (t.rd R.RETSTALE).toNat = min 0xFFFFFFFF ((s.rd R.RETSTALE).toNat + 1) ∧
        ∃ r ∈ t.reports, r.cls = .notice ∧ r.det = 0x43 ∧ r.unit = ent.val % 256) ∧
    (s.reaches req R.COLCTL → ∃ t, exec (.colctlAbort req) s = .next t ∧ t.sends = [] ∧ t.sendPend = [] ∧
      (t.rd R.COLDISC).toNat = min 0xFFFFFFFF ((s.rd R.COLDISC).toNat + (s.sends.length + s.sendPend.length)) ∧
      (∀ o, o ≠ R.COLDISC → t.rd o = s.rd o) ∧
      { t with regs := s.regs, sends := s.sends, sendPend := s.sendPend } = s) ∧
    (∀ (w : Fin 3) (v : W32),
      let i := s.fget R.GRPSEL_IOD
      let tb := s.fget R.GRPSEL_TBL
      let g := s.fget R.GRPSEL_INDEX
      ((accessEnds s req (R.GRPDATA w) false).isNone = true → ∃ t, exec (.grpdataAccess req w none) s = .next t ∧
        t.reply = .data (leBytes 4 (groupWord s i tb g w)) ∧ t.groups = s.groups ∧
        t.fget R.GRPSEL_INDEX = if w = 2 then (g + 1) % 4096 else g) ∧
      (s.reaches req (R.GRPDATA w) → s.unarmed → s.anyJob = false →
        let v' := v &&& BitVec.ofNat 32 (groupMask w)
        let e := gentry s i tb g
        let old := groupWord s i tb g w
        let l := if w = 0 then groupFields v'.toNat else []
        let n := settled old v'.toNat l
        let e' : GEnt := if w = 0 then { e with w0 := n } else if w = 1 then { e with w1 := n } else { e with w2 := n }
        (fieldsLegal l = true → n = v'.toNat) ∧
        (∀ f ∈ l, bitsOf n f.1 f.2.1 = bitsOf (if f.2.2 then v'.toNat else old) f.1 f.2.1) ∧
        (entryClash e' = false → ∃ t, exec (.grpdataAccess req w (some v)) s = .next t ∧
          gentry t i tb g = e' ∧ t.fget R.GRPSEL_INDEX = (if w = 2 then (g + 1) % 4096 else g) ∧
          (∀ g' w', g' < 4096 → w' < 3 → g' ≠ g ∨ w' ≠ w.val → groupWord t i tb g' w' = groupWord s i tb g' w') ∧
          t.reports.length = s.reports.length + (l.filter fun f => !f.2.2).length ∧
          ∀ r ∈ t.reports.drop s.reports.length, r.cls = .notice ∧ r.det = 0x01)))

/-- The ledger unit: batch completion, record delivery in order, event digests, seals, and signed heads (R557, R560, R564,
R566, R567, R568, R569, R570, R571, R576). Rests on log entries 72, 73, the model's reading or choice. -/
def Obligations.LedgerCollectsDeliversAndSeals : Prop :=
  ∀ s : State, s.unarmed → s.grave = false →
    (∀ b, s.led.live = true → s.led.batches.find? (fun k => !k.done) = some b →
      let bank := b.rnd % 2
      s.led.cfg.dcores.length ≤ (s.ctr (doneCtr s.led.cfg bank)).read.toNat →
      ∃ t its, exec .batchComplete s = .next t ∧ t.led.queue = s.led.queue ++ its ++ [.batchEnd b.rnd] ∧
        its.length = ((laneCtrs s.led.cfg bank).map fun n => min (s.ctr n).read.toNat s.led.cfg.slots).sum ∧
        t.led.nextLseq = s.led.nextLseq + its.length ∧
        (∀ (i : Nat) it, its[i]? = some it → ∃ blk core lane slot late,
          it = LItem.record blk core lane bank slot late (s.led.nextLseq + i) b.rnd) ∧
        (∀ k ∈ t.led.batches, k.rnd = b.rnd → k.done = true) ∧
        ∀ n ∈ doneCtr s.led.cfg bank :: laneCtrs s.led.cfg bank, (s.ctr n).owner.isSome = true → (s.ctr n).mode ≠ 3 →
          (t.ctr n).read = 0) ∧
    (∀ rs rnd rest, s.led.queue = rs ++ LItem.batchEnd rnd :: rest →
      (∀ it ∈ rs, ∃ b c l k j la q r, it = LItem.record b c l k j la q r) →
      s.led.outProd - outCons s + rs.length ≤ s.led.cfg.outEnt → ∃ t, exec .recordDelivery s = .next t ∧
        t.led.queue = rest ∧ t.led.outProd = s.led.outProd + rs.length ∧ t.led.chain = s.led.chain ∧
        (∀ b ∈ s.led.blocks, ∃ bs : List Byte, { b with bytes := b.bytes ++ bs } ∈ t.led.blocks ∧
          bs.length = 256 * (rs.filter fun it => match it with | .record k _ _ _ _ _ _ _ => k == b.id | _ => false).length) ∧
        (t.rd R.LEDREC).toNat = min 0xFFFFFFFF ((s.rd R.LEDREC).toNat + rs.length) ∧
        (t.rd R.LEDLATE).toNat = min 0xFFFFFFFF ((s.rd R.LEDLATE).toNat + (rs.filter itemLate).length)) ∧
    (∀ b c l k j la q r rest, s.led.queue = LItem.record b c l k j la q r :: rest → s.led.waiting = false →
      s.led.cfg.outEnt ≤ s.led.outProd - outCons s → ∃ t, exec .recordDelivery s = .next t ∧
        t.led.queue = s.led.queue ∧ t.led.outProd = s.led.outProd ∧ t.led.waiting = true ∧
        t.fget R.LEDSTAT_OUTFULL = 1 ∧ ∃ n ∈ t.reports, n.cls = .notice ∧ n.det = 0x39 ∧ n.cause = 5) ∧
    (∀ b, s.led.blocks.find? (fun k => k.idig.isNone) = some b →
      let c := s.led.cfg
      let as := (upto b.evCount).flatMap fun k => span (c.ringBase + (b.evFirst + k) % c.ringEnt * 256) 256
      ∃ t, exec .idigComplete s = .next t ∧ t.led.queue = s.led.queue ∧ t.led.outProd = s.led.outProd ∧
        t.led.blocks.map (·.id) = s.led.blocks.map (·.id) ∧
        ∀ k ∈ t.led.blocks, k.id = b.id → k.idig = some (sha384 (ledRead s as).1)) ∧
    (∀ blk rest b, s.led.queue = LItem.seal blk :: rest → s.led.blocks.find? (·.id == blk) = some b →
      b.idig.isSome = true → s.stopped = false → s.led.outProd - outCons s < s.led.cfg.outEnt →
      ∃ t, exec .sealWrite s = .next t ∧ t.led.queue = rest ∧ t.led.outProd = s.led.outProd + 1 ∧
        t.led.chain = sha384 (b.bytes ++ sealHead s.led b) ∧ t.led.prev = t.led.chain ∧ t.led.sealRnd = b.rnd ∧
        t.led.sealTime = b.dtime ∧ ∀ k ∈ t.led.blocks, k.id ≠ blk) ∧
    (s.led.live = true → ∃ t, exec .headSigning s = .next t ∧ t.led.nextSig = s.led.nextSig + 1 ∧
      (s.led.signing = none → s.led.sigProd - sigCons s < s.led.cfg.sigEnt →
        t.led.heads = s.led.heads + 1 ∧ t.led.signing.isSome = true ∧ t.rd R.LEDSIGSKIP = s.rd R.LEDSIGSKIP) ∧
      (s.led.signing.isSome = true ∨ s.led.cfg.sigEnt ≤ s.led.sigProd - sigCons s →
        t.led.heads = s.led.heads ∧ t.led.signing = s.led.signing ∧
        (t.rd R.LEDSIGSKIP).toNat = min 0xFFFFFFFF ((s.rd R.LEDSIGSKIP).toNat + 1))) ∧
    (∀ req, s.reaches req R.LEDCTL →
      (s.led.signing = none → s.led.sigProd - sigCons s < s.led.cfg.sigEnt → exec (.ledctlSignow req) s =
        .next { s with led := { s.led with heads := s.led.heads + 1, signing := some (headStatement s.led) } }) ∧
      (s.led.signing.isSome = true ∨ s.led.cfg.sigEnt ≤ s.led.sigProd - sigCons s →
        exec (.ledctlSignow req) s = .next (s.bump R.LEDSIGSKIP)) ∧
      ∃ t, exec (.ledctlResume req) s = .next t ∧ t.led.suspended = false ∧
        { t.led with suspended := s.led.suspended } = s.led ∧ (s.led.suspended = false → t = s)) ∧
    (∀ stmt, s.led.signing = some stmt → ∃ t, exec .signedEntryWrite s = .next t ∧ t.led.signing = none ∧
      t.led.sigProd = s.led.sigProd + 1 ∧ t.led.heads = s.led.heads ∧
      (t.rd R.LEDSIGCNT).toNat = min 0xFFFFFFFF ((s.rd R.LEDSIGCNT).toNat + 1))

/-- What an accepted flit of each addressed type does at its target, and the answer that leaves (R437, R440, R490, R593,
R594, R595, R597, R598, R600, R604, R609, R664). Rests on log entries 45, 46, 47, the model's reading or choice. -/
def Obligations.AcceptedFlitsAct : Prop :=
  ∀ (n : PortId) (i : FlitIn) (s : State), s.admits n i → s.unarmed →
    let f := flitOf n i
    let sb := s.buffered n i
    let s1 := crossbarIn sb (n / 12) f.vc (f.master sb)
    let next (t : State) : Prop := (t.port n).expect = ((s.port n).expect + 1) % 4096
    (f.dst = ownEp s → ownBlock s f.src = false →
      (f.typ = 1 → inboundCode s f.addr f.len true = 0 → f.addr + f.len ≤ 0x6000000000 →
        ∃ t, exec (.writeFlit n i) s = .next t ∧ next t ∧ s.stored t f.addr (f.payload.take f.len) ∧ t.ctrs = s.ctrs ∧
          ∀ p, s.routedTo (iodOfAddr f.addr) f.src p → ∃ g, g.typ = 6 ∧ g.dst = f.src ∧ g.addr = f.addr ∧
            tget [] (t.port p).tx f.vc = tget [] (s.port p).tx f.vc ++ [g]) ∧
      (f.typ = 1 → inboundCode s f.addr f.len true ≠ 0 → ∃ t, exec (.writeFlit n i) s = .next t ∧ next t ∧ t.mem = s.mem) ∧
      (f.typ = 2 → inboundCode s f.addr f.len false = 0 → f.addr + f.len ≤ 0x6000000000 →
        ∃ t, exec (.readFlit n i) s = .next t ∧ next t ∧ t.mem = s.mem ∧ t.ctrs = s.ctrs ∧
          ∀ p, s.routedTo (iodOfAddr f.addr) f.src p → ∃ g, g.typ = 3 ∧ g.dst = f.src ∧ g.addr = f.addr ∧ g.len = f.len ∧ g.payload.take f.len = s.ld f.addr f.len ∧
            tget [] (t.port p).tx f.vc = tget [] (s.port p).tx f.vc ++ [g]) ∧
      (f.typ = 5 → (s.ctr f.key).owner.isSome = true → (s.ctr f.key).mode = 0 →
        let v := hf f.hdr 20 32
        let r := ((s.ctr f.key).val.toNat : Int) + signedOf v 32
        (hf f.hdr 52 2 = 0 → (s.ctr f.key).bad = false → 0 ≤ r → r < 2 ^ 32 → ∃ t, exec (.ctrFlit n i) s = .next t ∧
          next t ∧ t.ctr f.key = { s.ctr f.key with val := BitVec.ofInt 32 r } ∧ t.mem = s.mem) ∧
        (hf f.hdr 52 2 = 1 → ∃ t, exec (.ctrFlit n i) s = .next t ∧ next t ∧ t.mem = s.mem ∧
          t.ctr f.key = { s.ctr f.key with val := BitVec.ofNat 32 v, bad := false }))) ∧
    (f.typ = 4 → ownBlock s f.dst = true → ownBlock s f.src = false → 128 ≤ f.dst % 256 →
      let c := f.dst % 256 - 128
      (bitOf f.hdr.toNat 58 = true → ∃ t, exec (.msgFlit n i) s = .next t ∧ next t ∧ t.cores = s.cores ∧
        (f.src, c, f.key, msgWords f) ∈ t.msgParts) ∧
      (bitOf f.hdr.toNat 58 = false → s.msgParts = [] → (mqOwner s c f.key).isSome = true →
        (s.mq c f.key).length + (msgWords f).length ≤ 64 → ∃ t, exec (.msgFlit n i) s = .next t ∧ next t ∧
          t.mq c f.key = s.mq c f.key ++ (msgWords f).map (fun w => queueWord true w.2 w.1) ∧
          ∀ q, q ≠ f.key → t.mq c q = s.mq c q)) ∧
    (ownBlock s f.dst = true →
      (answerVcBad s f = true →
        let t := Outcome.next ((sb.bump R.BADFLIT).reportFrom .notice 0x40 n 1 .none 8 0 (f.master sb) false)
        (f.typ = 3 → exec (.rdataFlit n i) s = t) ∧ (f.typ = 6 → exec (.ackFlit n i) s = t) ∧
        (f.typ = 7 → exec (.errFlit n i) s = t)) ∧
      (f.typ = 3 → let m := takeRemote 2 f.addr f.src f.vc false s.remotes
        (m = none → answerVcBad s f = false → exec (.rdataFlit n i) s = .next (s1.bump R.RSPLATE)) ∧
        ∀ q r c x, m = some (q, r) → q.who = .withy c x →
          exec (.rdataFlit n i) s = .next { s1 with remotes := r }) ∧
      (f.typ = 6 → let m := takeRemote (hf f.hdr 20 4) (hf f.hdr 24 44) f.src f.vc false s.remotes
        (m = none → answerVcBad s f = false → exec (.ackFlit n i) s = .next (s1.bump R.RSPLATE)) ∧
        ∀ q r c x, m = some (q, r) → q.who = .withy c x → exec (.ackFlit n i) s = .next { s1 with remotes := r }) ∧
      (f.typ = 7 → let m := takeRemote (hf f.hdr 20 4) (hf f.hdr 24 44) f.src f.vc (hf f.hdr 16 4 == 1) s.remotes
        (∀ q r c x, m = some (q, r) → q.who = .message c x → hf f.hdr 16 4 = 4 →
          exec (.errFlit n i) s = .next { s1 with remotes := r }) ∧
        (m = none → answerVcBad s f = false → exec (.errFlit n i) s = .next (s1.bump R.RSPLATE)) ∧
        ∀ q r c x, m = some (q, r) → q.who = .withy c x →
          exec (.errFlit n i) s = .next { s1 with remotes := r, withyErrs := s.withyErrs ++ [(c, x)] }) ∧
      (f.typ = 10 → exec (.mgmtFlit n i) s = .next s1)) ∧
    (f.typ = 8 → f.epoch = curTbl s →
      let e := mcastEntry s (n / 12) (curTbl s) (f.dst % 4096)
      (bitOf e 15 = false → exec (.mcwriteFlit n i) s = .next (s1.bump R.RTMISS)) ∧
      (bitOf e 15 = true → bitsOf e 0 12 = 0 → bitOf e 13 = false → bitOf e 14 = true → s.retEnts = [] →
        inboundCode s f.addr f.len true = 0 → f.addr + f.len ≤ 0x6000000000 →
        ∃ t, exec (.mcwriteFlit n i) s = .next t ∧ next t ∧ s.stored t f.addr (f.payload.take f.len)))

/-- LINK and RED flits, and flits that a port does not take: damaged, out of order, without room, ill-formed (R592, R593,
R597, R600, R601, R602, R618, R619, R643, R644, R647, R648). Rests on log entries 46, 47, 49, 50, the model's reading
or choice. -/
def Obligations.LinkAndReductionFlits : Prop :=
  ∀ (n : PortId) (i : FlitIn) (s : State), s.unarmed →
    let f := flitOf n i
    (s.goodFlit n i → f.typ = 0 → f.lseq = (s.port n).expect →
      let mask := hf f.hdr 84 4
      (bitOf f.hdr.toNat 83 = false → ∃ t, exec (.linkFlit n i) s = .next t ∧ t.fget (R.LNKSTAT_XOFFIN n) = mask ∧
        (t.port n) = { s.port n with heldIn := (s.port n).heldIn ++ [(2, mask)] }) ∧
      (bitOf f.hdr.toNat 83 = true → keptFrom (hf f.hdr 71 12) (s.port n).replay ≠ [] →
        ∃ t, exec (.linkFlit n i) s = .next t ∧ t.fget (R.LNKSTAT_XOFFIN n) = mask ∧
          (t.port n).resend = keptFrom (hf f.hdr 71 12) (s.port n).replay ∧
          (t.rd (R.REPLAY n)).toNat = min 0xFFFFFFFF ((s.rd (R.REPLAY n)).toNat + 1))) ∧
    (s.admits n i → f.typ = 9 → f.epoch = curTbl s → s.redWait = [] →
      let e := gentry s (n / 12) (curTbl s) f.grp
      let k := s.inst (n / 12) (curTbl s) f.grp
      let l := slotsOf s e.adder
      (e.valid = false → exec (.redFlit n i) s = .next ((s.buffered n i).bump R.REDMISS)) ∧
      (∀ d, e.valid = true → isDown e (n % 12) = false → k.opn = some d → d.tag = f.rtag → f.fmt32 = true →
        bitOf k.removed (n % 12) = false → 2 ^ (n.val % 12) &&& k.mask ≠ k.mask → l.length < 2048 →
        (∀ x ∈ l, x.of e d.tag = true → x.mask &&& k.mask ≠ k.mask) →
        e.root = false ∨ d.got.length ≠ bNoff (bindOf s (n / 12) f.grp) →
        (l.any (·.at e f.rtag f.off) = false → ∃ t el, exec (.redFlit n i) s = .next t ∧
          slotsOf t e.adder = l ++ [⟨e.iod, e.tbl, e.grp, f.rtag, f.off, el, f.cnt, 2 ^ (n.val % 12), f.poison⟩] ∧
          el = (chunk 4 f.payload 60).map (fun b => BitVec.ofNat 32 (ofLe b)) ∧
          t.inst (n / 12) (curTbl s) f.grp = k) ∧
        (∀ x, l = [x] → x.at e f.rtag f.off = true → bitOf x.mask (n % 12) = false →
          (x.mask ||| 2 ^ (n.val % 12)) &&& k.mask ≠ k.mask → ∃ t, exec (.redFlit n i) s = .next t ∧
            slotsOf t e.adder = [{ x with
              elems := (x.elems.zip ((chunk 4 f.payload 60).map fun b => BitVec.ofNat 32 (ofLe b))).map
                fun q => addWord q.1 q.2
              cnt := (x.cnt + f.cnt) % 65536, mask := x.mask ||| 2 ^ (n.val % 12)
              poison := x.poison || f.poison }]))) ∧
    (∀ c : Instr, c ∈ [Instr.linkFlit n i, .writeFlit n i, .readFlit n i, .rdataFlit n i, .msgFlit n i, .ctrFlit n i,
        .ackFlit n i, .errFlit n i, .mcwriteFlit n i, .redFlit n i, .mgmtFlit n i] →
      (portActive s n = false → exec c s = .next s) ∧
      (portActive s n = true → s.grave = false → i.unc = true ∨ i.uncw ≠ 0 → s.fget (R.LNKRPL_UNCLIM n) = 0 → ∃ t, exec c s = .next t ∧
        (t.rd (R.FECUNC n)).toNat = min 0xFFFFFFFF ((s.rd (R.FECUNC n)).toNat + i.uncw) ∧ (t.port n).lost = true ∧
        ((s.port n).lost = false → (t.port n).linkDue = true ∧ (t.port n).nakDue = true) ∧ t.mem = s.mem) ∧
      (portActive s n = true → s.grave = false → i.unc = false → i.uncw = 0 → crc16 i.hdr ≠ hf i.hdr 0 16 → ∃ t, exec c s = .next t ∧
        (t.rd (R.HDRCRC n)).toNat = min 0xFFFFFFFF ((s.rd (R.HDRCRC n)).toNat + 1) ∧ (t.port n).lost = true ∧
        t.mem = s.mem ∧ (t.port n).expect = (s.port n).expect)) ∧
    (∀ (typ : Nat) (c : Instr), (typ, c) ∈ [(1, Instr.writeFlit n i), (2, .readFlit n i), (3, .rdataFlit n i),
        (4, .msgFlit n i), (5, .ctrFlit n i), (6, .ackFlit n i), (7, .errFlit n i), (8, .mcwriteFlit n i),
        (9, .redFlit n i), (10, .mgmtFlit n i)] →
      portActive s n = true → s.grave = false → i.unc = false → i.uncw = 0 → crc16 i.hdr = hf i.hdr 0 16 → f.typ = typ →
      let d := (f.lseq + 4096 - (s.port n).expect) % 4096
      (d ≠ 0 → ∃ t, exec c s = .next t ∧ t.regs = (s.corrected n i).regs ∧ t.mem = s.mem ∧ (t.port n).expect = (s.port n).expect ∧
        (d < 2048 → (t.port n).lost = true) ∧ (2048 ≤ d → t = s.corrected n i)) ∧
      (d = 0 → bufDepth f.vc ≤ tget 0 (s.port n).rx f.vc → ∃ t, exec c s = .next t ∧
        (t.rd (R.FCDROP n)).toNat = min 0xFFFFFFFF ((s.rd (R.FCDROP n)).toNat + 1) ∧ (t.port n).lost = true) ∧
      (d = 0 → tget 0 (s.port n).rx f.vc < bufDepth f.vc → trafficOn s = true → flitOk f = false →
        (expectsAnswer typ = false → exec c s =
          .next (((s.buffered n i).bump R.BADFLIT).reportFrom .notice 0x40 n 1 .none 8 0 (f.master (s.buffered n i)) false)) ∧
        (expectsAnswer typ = true → ∃ t, exec c s = .next t ∧
          (t.rd R.BADFLIT).toNat = min 0xFFFFFFFF ((s.rd R.BADFLIT).toNat + 1) ∧
          (ownBlock s f.src = false → t.mem = s.mem ∧ ∀ p, s.routedTo (n / 12) f.src p →
            let vc := if f.typ = 4 ∨ 1 < f.vc then 1 else f.vc
            ∃ g, g.typ = 7 ∧ g.dst = f.src ∧ hf g.hdr 16 4 = 1 ∧
              tget [] (t.port p).tx vc = tget [] (s.port p).tx vc ++ [g] ∧
              ∃ r ∈ t.reports, r.cls = .notice ∧ r.det = 0x40 ∧ r.cause = 1))))

/-- The states of an Ibcia port, the flit sent at a boundary, timeouts, epoch holds, and the route tables by register
(R17, R599, R603, R606, R612, R614, R615, R618, R619, R621, R622, R624). Rests on log entries 3, 45, 46, 48, 49, 79,
the model's reading or choice. -/
def Obligations.PortsTrainSendAndRoute : Prop :=
  ∀ (req : Req) (n : PortId) (f : TrainFrame) (s : State),
    let st := s.fget (R.LNKSTAT_STATE n)
    let goes (t : State) (k : Nat) : Prop := t.fget (R.LNKSTAT_STATE n) = k ∧ t.mem = s.mem ∧ t.round.num = s.round.num
    (s.grave = false → ∃ t, exec (.trainingFrame n f) s = .next t ∧
      (st = 1 → goes t 2 ∧ t.fget (R.LNKSTAT_GEN n) = 1 ∧ t.fget (R.LNKSTAT_POLINV n) = f.polinv.val) ∧ (st = 2 → goes t 3) ∧
      (st = 3 → goes t (if (s.port n).gen2Step ∨ (s.port n).retraining then 5 else 4)) ∧
      (st = 4 → t.fget (R.LNKPEER_VALID n) = 1 ∧ t.fget (R.LNKPEER_PEERBLK n) = f.peerBlk.val ∧
        t.fget (R.LNKPEER_PEERPORT n) = f.peerPort.val ∧
        goes t (if s.fget (R.LNKCTL_GENMAX n) = 2 ∧ f.genMax = 2 then 2 else 5)) ∧
      (st = 6 → goes t 2) ∧ (st = 0 ∨ st = 5 ∨ 7 ≤ st → t = s) ∧
      (t.fget (R.LNKSTAT_STATE n) = 5 → st ≠ 5 → (t.port n).nextSeq = 0 ∧ (t.port n).expect = 0 ∧ (t.port n).replay = [])) ∧
    (s.grave = false → st = 2 ∨ st = 3 ∨ st = 4 ∨ st = 6 → ∃ t, exec (.trainingLimitExpiry n) s = .next t ∧
      ((s.port n).returns < 2 → goes t 1 ∧ (t.port n).returns = (s.port n).returns + 1) ∧
      (2 ≤ (s.port n).returns → goes t 7 ∧
        (t.rd (R.TRNFAIL n)).toNat = min 0xFFFFFFFF ((s.rd (R.TRNFAIL n)).toNat + 1))) ∧
    (st = 5 → s.grave = false → ∃ t, exec (.codewordLockLoss n) s = .next t ∧ t.fget (R.LNKSTAT_STATE n) = 6 ∧ (t.port n).replay = [] ∧
      (t.port n).rx = [] ∧ (s.anyJob = true → ∃ r ∈ t.reports, r.cls = .contained ∧ r.det = 0x41 ∧ r.party = .ibcia n)) ∧
    (s.reaches req (R.LNKCTL n) → s.unarmed →
      (s.anyJob = true → ∃ t, exec (.lnkctlRetrain req n) s = .next t ∧ t.fget (R.LNKSTAT_BUSYREF n) = 1 ∧
        t.fget (R.LNKSTAT_STATE n) = st) ∧
      (s.anyJob = false → ∃ t, exec (.lnkctlRetrain req n) s = .next t ∧
        t.fget (R.LNKSTAT_STATE n) = if st = 5 then 6 else if st = 7 then 1 else st) ∧
      (∃ t, exec (.lnkctlEnable req n false) s = .next t ∧ t.fget (R.LNKCTL_ENABLE n) = 0 ∧
        t.fget (R.LNKSTAT_STATE n) = 0 ∧ t.fget (R.LNKSTAT_GEN n) = 0) ∧
      ∃ t, exec (.lnkctlEnable req n true) s = .next t ∧ t.fget (R.LNKCTL_ENABLE n) = 1 ∧
        t.fget (R.LNKSTAT_STATE n) = if st = 0 ∧ bitOf s.fencePorts n = false then 1 else st) ∧
    (∀ (v : Nat) (g : Flit) r, let p := s.port n
      st = 5 → p.linkDue = false → p.resend = [] → p.xoff = 0 → p.heldIn = [] → p.held = 0 → trafficOn s = true →
      p.replay.length < 1024 → tget [] p.tx v = g :: r →
      (v = 1 ∧ s.fget (R.LNKCTL_UMIN n) + 1 ≤ p.passed) ∨
        ((tget [] p.tx 1 = [] ∨ p.passed ≤ s.fget (R.LNKCTL_UMIN n)) ∧ (v = 3 ∨ v = 2 ∧ tget [] p.tx 3 = [] ∨
          v = 0 ∧ tget [] p.tx 3 = [] ∧ tget [] p.tx 2 = [] ∨
          v = 1 ∧ tget [] p.tx 3 = [] ∧ tget [] p.tx 2 = [] ∧ tget [] p.tx 0 = [])) →
      ∃ t h, exec (.flitBoundary n) s = .next t ∧ t.out = s.out ++ [.flit n h g.payload] ∧
        crc16 h = hf h 0 16 ∧ hf h 108 12 = p.nextSeq % 4096 ∧ hf h 120 8 = hf g.hdr 120 8 ∧ hf h 16 92 = hf g.hdr 16 92 ∧
        tget [] (t.port n).tx v = r ∧ (t.port n).nextSeq = (p.nextSeq + 1) % 4096 ∧
        (t.port n).replay = p.replay ++ [(⟨h, g.payload, none⟩, s.clk.tenths)]) ∧
    (st = 5 → s.grave = false → (s.port n).lost = true → ∃ t, exec (.nakRepeat n) s = .next t ∧ (t.port n).linkDue = true ∧
      (t.port n).nakDue = true ∧ (t.port n).expect = (s.port n).expect) ∧
    (∀ e r, s.grave = false → (s.port n).replay = e :: r → ∃ t, exec (.replayRelease n) s = .next t ∧ (t.port n).replay = r) ∧
    (∀ q t0, eldest s.remotes = some (q, t0) → (q ∈ s.remotes ∧ q.sentAt = some t0 ∧
        ∀ p ∈ s.remotes, ∀ u, p.sentAt = some u → t0 ≤ u) ∧
      ∀ c x, s.grave = false → q.who = .withy c x → ∃ t, exec .remoteTimeout s = .next t ∧
        t.remotes = s.remotes.filter (fun p => p.id != q.id) ∧ t.withyErrs = s.withyErrs ++ [(c, x)] ∧
        (s.clk.present = true → t0 + s.fget R.RMTCFG_RMTTO * 10000 ≤ t.clk.tenths)) ∧
    ((∀ p ∈ s.remotes, p.sentAt = none) → exec .remoteTimeout s = .next s) ∧
    (s.grave = false → s.epochHold = true → oldPending s = false → ∃ t, exec .epochHoldRelease s = .next t ∧ t.epochHold = false ∧
      t.held = []) ∧
    (s.reaches req R.RTCTL → s.unarmed →
      (s.fget R.RNDSTAT_STATE < 2 ∨ s.round.num.toNat < rtgornd s →
        exec (.rtctlArm req) s = .next (s.fset R.RTSTAT_ARMED 1)) ∧
      (2 ≤ s.fget R.RNDSTAT_STATE → rtgornd s ≤ s.round.num.toNat → exec (.rtctlArm req) s = .next (busyRefused s R.RTSTAT_BUSYREF))) ∧
    (let d := s.fget R.RTCTL_IOD
      let tb := s.fget R.RTSEL_TBL
      let k := s.fget R.RTSEL_INDEX
      ((accessEnds s req R.RTDATA false).isNone = true → ∃ t, exec (.rtdataAccess req none) s = .next t ∧
        t.reply = .data (leBytes 4 (rtEntry s)) ∧ t.fget R.RTSEL_INDEX = (k + 1) % 2 ^ 20 ∧ t.routes = s.routes) ∧
      (∀ v : W32, s.reaches req R.RTDATA → s.unarmed → s.anyJob = false → s.fget R.RTSEL_KIND = 0 →
        let l := routeFields (v.toNat % 65536)
        ∃ t, exec (.rtdataAccess req (some v)) s = .next t ∧
          (fieldsLegal l = true → routeEntry t d tb k = bitsOf v.toNat 4 12 * 16) ∧
          (∀ f ∈ l, bitsOf (routeEntry t d tb k) f.1 f.2.1 =
            bitsOf (if f.2.2 then v.toNat else routeEntry s d tb k) f.1 f.2.1) ∧
          bitOf (routeEntry t d tb k) 15 = bitOf v.toNat 15 ∧ bitOf (routeEntry t d tb k) 9 = bitOf v.toNat 9 ∧
          t.reports.length = s.reports.length + (l.filter fun f => !f.2.2).length ∧
          t.fget R.RTSEL_INDEX = (k + 1) % 2 ^ 20 ∧ t.mcast = s.mcast ∧
          ∀ j, j < 2 ^ 20 → j ≠ k → routeEntry t d tb j = routeEntry s d tb j))

/-- Configuration, BAR4 messages and bad writes, MSI-X unmask, Function Level Reset, PERST#, link training (R687, R688,
R689, R693, R697, R698, R725, R726). Rests on log entries 40, 41, 42, 43, 44, the model's reading or choice. -/
def Obligations.HostFunctionRows : Prop :=
  ∀ (c : CoreId) (q : SlotId) (ws : List W64) (off : Nat) (data : List (Option Byte)) (vec : Fin 2048) (s : State),
    let sent (t : State) : Prop := (∀ v, t.msixPend.contains v = true → msixFree t v = false) ∧
      (s.msixPend = [] → t.out = s.out)
    (∀ r : CfgReq, s.stage = 0 → exec (.configRequest r) s = .next { s with reply := .retry }) ∧
    (s.stage ≠ 0 →
      (∃ t, exec (.configRequest (.read 0)) s = .next t ∧
        t.reply = .data (leBytes 4 (0xF1C9 * 65536 + Config.vendor.toNat)) ∧ t.regs = s.regs) ∧
      (∀ b, ∃ t, exec (.configRequest (.power b)) s = .next t ∧ t.fget R.HIFSTAT_D3 = (if b then 1 else 0) ∧
        (∀ o, o ≠ R.HIFSTAT → t.rd o = s.rd o) ∧ sent t ∧
        ({ t with regs := s.regs, msixPend := s.msixPend, out := s.out } : State) = s) ∧
      (∀ a b, ∃ t, exec (.configRequest (.msix a b)) s = .next t ∧ t.msixOn = a ∧ t.msixMask = b ∧ sent t ∧
        ({ t with msixOn := s.msixOn, msixMask := s.msixMask, msixPend := s.msixPend, out := s.out } : State) = s) ∧
      (∀ v : W32, ∃ t, exec (.configRequest (.write 4 v)) s = .next t ∧ t.fget R.HIFSTAT_BME = v.toNat / 4 % 2 ∧
        sent t)) ∧
    (msixUp s = true → s.unarmed →
      (bar4Up s = true → 1 ≤ ws.length → ws.length ≤ 32 → (mqOwner s c q).isSome = true → (s.mq c q).length + ws.length ≤ 64 →
        ∃ t, exec (.bar4MessageWrite c q ws) s = .next t ∧
          t.mq c q = s.mq c q ++ ws.map (fun w => BitVec.ofNat 64 (2 ^ 63 + w.toNat % 2 ^ 62)) ∧
          (∀ q', q' ≠ q.val → t.mq c q' = s.mq c q') ∧ t.regs = s.regs) ∧
      (let bad (t : State) : Prop := ((t.rd R.REGERRC).toNat = min 0xFFFFFFFF ((s.rd R.REGERRC).toNat + 1) ∧
          t.fget R.REGFIRST_VALID = 1 ∧ (s.fget R.REGFIRST_VALID = 0 → t.fget R.REGFIRST_CAUSE = 5) ∧
          t.mem = s.mem ∧ t.cores = s.cores ∧ t.ctrs = s.ctrs ∧
          ∃ r, t.reports = s.reports ++ [r] ∧ r.cls = .notice ∧ r.det = 0x03 ∧ r.cause = 5);
        (ws.length = 0 ∨ 32 < ws.length → ∃ t, exec (.bar4MessageWrite c q ws) s = .next t ∧ bad t) ∧
        (0x900000 ≤ off ∧ off < 0x1F00000 ∨ none ∈ data →
          ∃ t, exec (.bar4BadWrite off data) s = .next t ∧ bad t))) ∧
    (msixUp s = false → exec (.msixUnmask vec) s = .next s) ∧
    (msixUp s = true → ∃ t, exec (.msixUnmask vec) s = .next t ∧ (msixWord t vec 3).toNat % 2 = 0 ∧
      (s.msixPend.contains vec.val = true → msixFree t vec = true → t.msixPend.contains vec.val = false ∧
        t.out = s.out ++ [.msix vec ((msixWord s vec 0).toNat + (msixWord s vec 1).toNat * 2 ^ 32) (msixWord s vec 2)]) ∧
      (s.msixPend.contains vec.val = false → t.out = s.out)) ∧
    (s.stage ≠ 0 → ∃ t, exec .functionLevelReset s = .next t ∧ t.msixTab = [] ∧ t.msixPend = [] ∧ t.msixOn = false ∧
      t.fget R.HIFSTAT_BME = 0 ∧ t.fget R.HIFSTAT_D3 = 0 ∧ t.fget R.HIFSTAT_GEN = s.fget R.HIFSTAT_GEN ∧
      t.fget R.HIFSTAT_WIDTH = s.fget R.HIFSTAT_WIDTH ∧ t.fget R.HIFSTAT_FLIT = s.fget R.HIFSTAT_FLIT ∧
      (∀ o, o < 0x10000 → o ≠ R.HIFSTAT → t.rd o = resetWord o) ∧ t.rd R.BAR2WIN = resetWord R.BAR2WIN ∧
      (s.anyJob = false → s.chans = [] → s.unloads = 0 → t.mem = s.mem ∧ t.ctrs = s.ctrs ∧ t.cores = s.cores ∧
        ∀ o, 0x10000 ≤ o → o ≠ R.BAR2WIN → (o < R.dmaBase ∨ R.dmaBase + 0x1800 ≤ o) → t.rd o = s.rd o)) ∧
    (∃ t, exec .perstAssert s = .next t ∧ t.perst = true ∧ t.fget R.HIFSTAT_GEN = 0 ∧ t.fget R.HIFSTAT_WIDTH = 0 ∧
      t.fget R.HIFSTAT_FLIT = 0) ∧
    exec .perstDeassert s = .next { s with perst := false } ∧
    (∀ (g w : Fin 4) (f : Bool), s.perst = false → s.stage ≠ 0 → g ≠ 0 → w ≠ 0 → (g = 3 → f = true) →
      ∃ t, exec (.hostLinkUp g w f) s = .next t ∧ t.fget R.HIFSTAT_GEN = g.val ∧ t.fget R.HIFSTAT_WIDTH = w.val ∧
        t.fget R.HIFSTAT_FLIT = (if f then 1 else 0) ∧ s.regsBut t [R.HIFSTAT])

/-- Register writes, their errors and locks, the wide-value mailboxes, and the update strobes (R699, R700, R704, R705,
R706, R708, R709, R710, R711, R712, R715, R17). Rests on log entries 10, 11, 12, 13, 14, the model's reading or
choice. -/
def Obligations.RegisterAndMailboxRows : Prop :=
  ∀ (req : Req) (off : Nat) (v : W32) (be : Fin 16) (c : CoreId) (e : EngId) (s : State),
    (∀ p ∈ [(R.RTSEL, (0xC00FFFFF : W32)), (R.GRPSEL, 0xC0000FFF)], s.unarmed → s.reaches req p.1 →
      ∃ t, exec (.registerWrite req p.1 v 15) s = .next t ∧ s.regsBut t [p.1] ∧
        t.rd p.1 = (s.rd p.1 &&& ~~~p.2) ||| (v &&& p.2)) ∧
    (off % 4 = 0 → (regSpec off).isSome = true → s.unarmed →
      (s.reaches req off → be ≠ 15 → exec (.registerWrite req off v be) s = .next (regError s req off 2 false)) ∧
      (stageReached s off = false → ¬ (req = .host ∧ s.fget R.HIFSTAT_D3 = 1) →
        exec (.registerWrite req off v be) s = .next (regError s req off 3 false)) ∧
      (stageReached s off = false → ¬ (req = .host ∧ s.fget R.HIFSTAT_D3 = 1) →
        exec (.registerAccessTimeout req off true) s = .next (regError s req off 3 false)) ∧
      (stageReached s off = true → ¬ (req = .host ∧ s.fget R.HIFSTAT_D3 = 1) →
        exec (.registerAccessTimeout req off true) s = .next (regError s req off 1 false) ∧
        ∃ t, exec (.registerAccessTimeout req off false) s = .next t ∧ t.reply = .abort ∧
          { t with reply := s.reply } = regError s req off 1 false)) ∧
    (∀ cause inj, cause < 8 → let t := regError s req off cause inj
      let k := if cause = 1 then R.REGTO else R.REGERRC
      (t.rd k).toNat = min 0xFFFFFFFF ((s.rd k).toNat + 1) ∧ (s.fget R.REGFIRST_VALID = 0 →
        t.fget R.REGFIRST_VALID = 1 ∧ t.fget R.REGFIRST_CAUSE = cause ∧ t.fget R.REGFIRST_OFFSET = off % 2 ^ 26) ∧
      (∀ o, o ≠ k → o ≠ R.REGFIRST → t.rd o = s.rd o) ∧ { t with regs := s.regs, reports := s.reports } = s ∧
      ∃ r, t.reports = s.reports ++ [r] ∧ r.cls = .notice ∧ r.det = 0x03 ∧ r.cause = cause ∧ r.inj = inj) ∧
    (s.reaches req (off / 4 * 4) → locate (off / 4 * 4) = none → exec (.registerWrite req off v be) s = .next s) ∧
    (s.unarmed → s.reaches req (R.WVDBGSEL c) → 64 ≤ bitsOf v.toNat 8 7 →
      ∃ t r, exec (.registerWrite req (R.WVDBGSEL c) v 15) s = .next t ∧
        t.fget (R.WVDBGSEL_MAT c) = s.fget (R.WVDBGSEL_MAT c) ∧ t.fget (R.WVDBGSEL_ENG c) = bitsOf v.toNat 16 1 ∧
        t.fget (R.WVDBGSEL_ROW c) = v.toNat % 32 ∧ t.reports = s.reports ++ [r] ∧ r.cls = .notice ∧ r.det = 0x01) ∧
    (s.reaches req R.EPCFG → exec (.epcfgLock req) s = .next (s.fset R.EPCFG_LOCK 1)) ∧
    (s.reaches req (R.WVCFG c e) → exec (.wvcfgLock req c e) s = .next (s.fset (R.WVCFG_LOCK c e) 1)) ∧
    (s.reaches req (R.CPCTL c) → exec (.cpctlDbglock req c) s = .next (s.fset (R.CPCTL_DBGLOCK c) 1)) ∧
    (s.unarmed → s.reaches req (R.WVCFG c e) → s.fget (R.WVCFG_LOCK c e) = 1 →
      ∃ t, exec (.registerWrite req (R.WVCFG c e) v 15) s = .next t ∧ t.rd (R.WVCFG c e) = s.rd (R.WVCFG c e) ∧
        (t.rd R.LOCKREF).toNat = min 0xFFFFFFFF ((s.rd R.LOCKREF).toNat +
          if v.toNat % 2 ^ 12 = s.fget (R.WVCFG_DUMTHR c e) ∧ bitsOf v.toNat 16 8 = s.fget (R.WVCFG_RAMPT c e) ∧
            bitsOf v.toNat 24 4 = s.fget (R.WVCFG_RAMPN c e) then 0 else 1)) ∧
    (∀ (p : Place) (sel : W16), mboxSel off = some p → s.reaches req off → ((s.mbox p req).busy = true →
        (s.mbox p req).sel ≠ selWord sel.toNat false → exec (.mailboxRead req off sel) s =
          .next (s.setMbox p req { s.mbox p req with ovr := true })) ∧ ((s.mbox p req).busy = false →
      (∀ w, wideRead s p sel.toNat = some w → ∃ t, exec (.mailboxRead req off sel) s = .next t ∧
        (t.mbox p req).lo.toNat = w % 2 ^ 32 ∧ (t.mbox p req).hi.toNat = w / 2 ^ 32 % 2 ^ 32 ∧
        (t.mbox p req).valid = true ∧ (t.mbox p req).err = false ∧ { t with mboxes := s.mboxes } = s ∧
        ∀ r', r' ≠ req → t.mbox p r' = s.mbox p r') ∧
      (wideRead s p sel.toNat = none → ∃ t, exec (.mailboxRead req off sel) s = .next t ∧
        (t.mbox p req).valid = true ∧ (t.mbox p req).err = true ∧ (t.mbox p req).code = 1 ∧
        { t with mboxes := s.mboxes } = s) ∧
      (p.kind = .round → s.unarmed → s.fget R.RNDSTAT_STATE = 0 → ∃ t, exec (.mailboxWrite req off 4) s = .next t ∧
        t.round = { s.round with rndStart := BitVec.ofNat 64 ((s.mbox p req).lo.toNat + (s.mbox p req).hi.toNat * 2 ^ 32) } ∧
        (t.mbox p req).err = false ∧ t.regs = s.regs) ∧
      (∃ t, exec (.registerWrite req off (selWord sel.toNat false) 15) s = .next t ∧ (t.mbox p req).busy = true ∧
        (t.mbox p req).valid = false ∧ (t.mbox p req).sel = selWord sel.toNat false ∧
        { t with mboxes := s.mboxes } = s)) ∧
      ∃ t, exec (.mailboxTimeout req off) s = .next t ∧ (t.mbox p req).err = true ∧ (t.mbox p req).code = 4 ∧
        (t.mbox p req).busy = false ∧ { t with mboxes := s.mboxes } = s) ∧
    (s.reaches req R.UPDSTB → ∀ m : W16,
      (∃ t, exec (.updstbFire req m) s = .next t ∧ s.regsBut t [R.UPDSTAT] ∧ t.fget R.UPDSTAT_PEND = s.fget R.UPDSTAT_PEND ∧
        ∀ d, d < 16 → bitOf (t.fget R.UPDSTAT_ARMED) d =
          (bitOf (s.fget R.UPDSTAT_ARMED) d && !(decide (1 ≤ d) && bitOf m.toNat d))) ∧
      ∃ t, exec (.updstbArm req m) s = .next t ∧ s.regsBut t [R.UPDSTAT] ∧ t.fget R.UPDSTAT_PEND = s.fget R.UPDSTAT_PEND ∧
        ∀ d, d < 16 → bitOf (t.fget R.UPDSTAT_ARMED) d =
          (bitOf (s.fget R.UPDSTAT_ARMED) d || (decide (1 ≤ d) && bitOf m.toNat d)))

/-- Base, Upsett, Siding, their failures, and the losses of 54 V and of 3.3 V AUX (R733, R735, R736, R738, R741, R742,
R744, R749, R756, R758, R803, R848). Rests on log entries 5, 53, 55, 61, the model's reading or choice. -/
def Obligations.StartStagesAndSupplies : Prop :=
  ∀ s : State,
    let first (code : Nat) : Nat := if s.fget R.STAGESTAT_FAILCODE = 0 then code else s.fget R.STAGESTAT_FAILCODE
    (s.sec.base = false → s.sec.in54 = false → s.fget R.STAGESTAT_FAIL = 0 → ∃ t, exec .auxGood s = .next t ∧ t.sec.base = true ∧
      t.fget R.RBSTAT_FWCNT = s.sec.fw % 128 ∧ t.fget R.RBSTAT_KGCNT = s.sec.kg % 128 ∧
      t.fget R.STAGESTAT_STAGE = s.fget R.STAGESTAT_STAGE ∧ t.mem = s.mem ∧ t.sec.flash = s.sec.flash ∧
      t.sec.fw = s.sec.fw ∧ t.sec.kg = s.sec.kg ∧
      ((t.reports = s.reports ∧ t.rd R.STAGESTAT = s.rd R.STAGESTAT) ∨
       (t.fget R.STAGESTAT_FAIL = 1 ∧ t.fget R.STAGESTAT_FAILCODE = first 1 ∧
        ∃ r, t.reports = s.reports ++ [r] ∧ r.cls = .grave ∧ r.det = 0x49 ∧ r.cause = 1))) ∧
    (s.stage = 1 → s.sec.in54 = false → s.pw.tripped = false → s.grave = false → s.fget R.STAGESTAT_FAIL = 0 →
      ∃ t, exec .input54vGood s = .next t ∧ t.sec.in54 = true ∧ t.mem = s.mem ∧ t.sec.fw = s.sec.fw ∧
        t.sec.kg = s.sec.kg ∧ t.sec.flash = s.sec.flash ∧
        ((t.fget R.STAGESTAT_FAIL = 1 ∧ t.fget R.STAGESTAT_STAGE = 1) ∨
         (t.fget R.STAGESTAT_FAIL = 0 ∧ t.fget R.STAGESTAT_STAGE = 2 ∧
          t.fget R.FLSTAT_SLOT + t.fget R.BOOTSTAT_SLOT = 1 ∧
          t.fget (if t.fget R.BOOTSTAT_SLOT = 0 then R.BOOTSTAT_ARES else R.BOOTSTAT_BRES) = 1 ∧
          s.sec.fw ≤ t.fget R.BOOTSTAT_SVN ∧ s.sec.kg ≤ t.fget R.BOOTSTAT_KGEN))) ∧
    (s.stage = 2 → s.grave = false → s.fget R.STAGESTAT_FAIL = 0 → ∃ t, exec .siding s = .next t ∧ t.mem = s.mem ∧
      ((t.fget R.STAGESTAT_FAIL = 1 ∧ t.fget R.STAGESTAT_STAGE = 2) ∨
       (t.fget R.STAGESTAT_FAIL = 0 ∧ t.fget R.STAGESTAT_STAGE = 3 ∧
        (∀ c, c < 128 → coreFenced t c = false → t.fget (R.CPCTL_ENABLE c) = 1 ∧ t.fget (R.VUCTL_ENABLE c) = 1 ∧
          t.fget (R.WVCTL_ENABLE c 0) = 1 ∧ t.fget (R.WVCTL_ENABLE c 1) = 1) ∧
        (∀ n, n < 96 → t.fget (R.DMACTL_ENABLE n) = 1) ∧ (∀ n, n < 24 → t.fget (R.LNKCTL_ENABLE n) = 1) ∧
        t.fget R.STEPCTL_ENABLE = 1 ∧ t.fget R.LEDCTL_ENABLE = 1 ∧ t.fget R.COLCTL_ENABLE = 1 ∧
        (s.fget R.BOOTSTAT_DBGPOL = 0 → (∀ c, c < 128 → t.fget (R.CPCTL_DBGLOCK c) = 1) ∧
          t.fget R.TLCTL_LOCK = 1 ∧ t.fget R.TLCTL_OPEN = 0)))) ∧
    (let failed (t : State) (code : Nat) : Prop := (t.fget R.STAGESTAT_FAIL = 1 ∧ t.fget R.STAGESTAT_FAILCODE = first code ∧
        t.fget R.STAGESTAT_STAGE = s.fget R.STAGESTAT_STAGE ∧ t.mem = s.mem ∧
        ∃ r, t.reports = s.reports ++ [r] ∧ r.cls = .device ∧ r.det = 0x48 ∧ r.cause = code);
      s.grave = false → s.fget R.STAGESTAT_FAIL = 0 →
        (s.sec.base = false ∨ s.stage = 1 ∨ s.stage = 2 → ∃ t, exec .stageBoundExpiry s = .next t ∧ failed t 8 ∧
          s.clk.tenths ≤ t.clk.tenths) ∧
        (s.stage = 1 → ∀ pll, ∃ t, exec (.pllLockTimeout pll) s = .next t ∧ failed t 4)) ∧
    (s.sec.base = true → s.sec.in54 = true → ∃ t, exec .input54vLoss s = .next t ∧ t.sec.in54 = false ∧
      t.sec.base = true ∧ t.sec.keys = false ∧ t.fget R.STAGESTAT_STAGE = 1 ∧ t.fenceCores = s.fenceCores ∧ t.jobD = none ∧ t.jobT = none ∧
      t.cores = [] ∧ t.ctrs = [] ∧ (∀ a, t.ld a 1 = if cxlMem a then s.ld a 1 else [0]) ∧
      (let ruled (o : Nat) : Prop := t.rd o = if auxReg o then s.rd o else resetWord o
       (∀ o, o ≠ R.STAGESTAT → o ≠ R.EPCFG → o ≠ R.TLCTL → (∀ c, c < 128 → o ≠ R.CPCTL c ∧ o ≠ R.WVCFG c 0 ∧ o ≠ R.WVCFG c 1) →
         ruled o) ∧
       (∀ p ∈ [(R.EPCFG, R.EPCFG_LOCK)] ++ (upto 128).flatMap fun c => [(R.WVCFG c 0, R.WVCFG_LOCK c 0),
           (R.WVCFG c 1, R.WVCFG_LOCK c 1)],
         (s.fget p.2 = 1 → t.rd p.1 = s.rd p.1) ∧ (s.fget p.2 = 0 → ruled p.1)) ∧
       t.fget R.TLCTL_LOCK = s.fget R.TLCTL_LOCK ∧ t.fget R.TLCTL_OPEN = 0 ∧
       ∀ c, c < 128 → (s.fget (R.CPCTL_DBGLOCK c) = 0 → ruled (R.CPCTL c)) ∧ (s.fget (R.CPCTL_DBGLOCK c) = 1 →
         t.fget (R.CPCTL_DBGLOCK c) = 1 ∧ t.fget (R.CPCTL_DBGEN c) = s.fget (R.CPCTL_DBGEN c) ∧
         t.fget (R.CPCTL_ENABLE c) = 0)) ∧
      t.sec.fw = s.sec.fw ∧ t.sec.kg = s.sec.kg ∧ t.sec.flash = s.sec.flash ∧
      ∃ r, t.reports = s.reports ++ [r] ∧ r.cls = .device ∧ r.det = 0x4E ∧ r.unit = 0x0B ∧ (r.cause = 1 ∨ r.cause = 2)) ∧
    (∃ t, exec .auxLoss s = .next t ∧ t.sec.base = false ∧ (∀ o, t.rd o = resetWord o) ∧ t.jobD = none ∧
      t.jobT = none ∧ t.cores = [] ∧ t.ctrs = [] ∧ (∀ a, t.ld a 1 = if cxlMem a then s.ld a 1 else [0]) ∧
      t.sec.fw = s.sec.fw ∧ t.sec.kg = s.sec.kg ∧ t.pending = s.pending ∧
      (s.sec.flop = none → t.sec.flash = s.sec.flash))

/-- The commands of the management mailbox and the operations on a boot flash (R725, R740, R750, R759, R760, R768, R772,
R838). Rests on log entries 5, 53, 60, 62, 63, the model's reading or choice. -/
def Obligations.MailboxAndFlashCommands : Prop :=
  ∀ (via : MbPath) (req : Req) (addr : Nat) (s : State),
    let q := mbReq s via
    let served (op : Nat) : Prop := s.sec.base = true ∧ s.sec.mbq.head? = some via ∧ mbOp s via = op
    let k := imgNat q 0 1
    let v := imgNat q 1 1
    let ep := imgNat q 0 2
    (∀ st resp, st < 256 → resp.length ≤ 1024 → let t := mbEnd s via st resp
      t.sec.mbq = s.sec.mbq.tail ∧ t.mem = s.mem ∧ t.cores = s.cores ∧
      (∀ o, o ≠ R.MBSTAT → (∀ w, w < 256 → o ≠ R.MBDATA w) → t.rd o = s.rd o) ∧
      (via = .sideband → t.sec.sb.resp = some (st, resp) ∧ t.sec.sb.busy = false ∧ t.regs = s.regs) ∧
      (via = .host → t.fget R.MBSTAT_STATUS = st ∧ t.fget R.MBSTAT_RLEN = resp.length ∧ t.fget R.MBSTAT_DONE = 1 ∧
        t.fget R.MBSTAT_BUSY = 0 ∧ (mbData t).take resp.length = resp)) ∧
    (∀ p ∈ [(Instr.getid via, 1, 0, 1), (.getstage via, 2, 0, 1), (.getcap via, 3, 0, 1), (.getmeas via, 4, 1, 2),
        (.getcert via, 5, 5, 2), (.setepbase via, 6, 2, 1), (.rbcommit via, 7, 2, 3), (.warmrst via, 8, 0, 1)],
      served p.2.1 →
      (s.grave = true → 3 < p.2.1 → exec p.1 s = .next (mbEnd s via 3 [])) ∧
      ((s.grave = false ∨ p.2.1 ≤ 3) →
        (q.length ≠ p.2.2.1 → exec p.1 s = .next (mbEnd s via 2 [])) ∧
        (q.length = p.2.2.1 → s.stage < p.2.2.2 → exec p.1 s = .next (mbEnd s via 4 [])))) ∧
    (q = [] → 1 ≤ s.stage →
      (served 1 → exec (.getid via) s = .next (mbEnd s via 0 (partNumber ++ [Config.stepping 0, Config.stepping 1] ++
        serialChars ++ leBytes 4 Config.romVersion.toNat))) ∧
      (served 2 → exec (.getstage via) s = .next (mbEnd s via 0 (word4 s R.STAGESTAT ++ word4 s R.BOOTSTAT ++
        word4 s R.RBSTAT ++ leBytes 8 s.now))) ∧
      (served 3 → exec (.getcap via) s = .next (mbEnd s via 0 (word4 s R.CAPSTAT ++ word4 s (R.FENCE 0) ++
        word4 s (R.FENCE 1) ++ word4 s (R.FENCE 2) ++ word4 s (R.FENCE 3)))) ∧
      (served 8 → s.grave = false → s.reports = [] → ∃ t, exec (.warmrst via) s = .next t ∧ t.jobD = none ∧
        t.jobT = none ∧ t.sec.base = true ∧ (t.fget R.STAGESTAT_STAGE = 1 ∨ t.fget R.STAGESTAT_STAGE = 2) ∧
        t.rd R.FHCONT = s.rd R.FHCONT ∧ t.fget R.FHSTAT_WRCNT = s.fget R.FHSTAT_WRCNT ∧
        (∀ c k, c < 6 → k < 5 → t.rd (R.FHCNT c k) = s.rd (R.FHCNT c k)) ∧ t.captures = s.captures ∧
        (t.fget R.STAGESTAT_STAGE = 2 → t.clk = s.clk) ∧ s.clk.tenths ≤ t.clk.tenths ∧ t.sec.fw = s.sec.fw ∧ t.sec.pref = s.fget R.BOOTCTL_PREF ∧
        (via = .sideband → t.sec.sb.resp = some (0, [])) ∧
        (s.fget R.MEMCTL_DUMP = 0 ∨ s.stopped = false → ∀ a, t.ld a 1 = if isHbm a || cxlMem a then s.ld a 1 else [0]))) ∧
    (s.grave = false →
      (served 4 → q.length = 1 → 2 ≤ s.stage → exec (.getmeas via) s = .next (match measurement s k with
        | some m => mbEnd s via 0 m
        | none => mbEnd s via (if 1 ≤ k ∧ k ≤ 11 then 4 else 3) [])) ∧
      (served 5 → q.length = 5 → 2 ≤ s.stage → exec (.getcert via) s = .next (if 2 < k then mbEnd s via 3 [] else
        mbEnd s via 0 (((tget [] s.sec.chains k).drop (imgNat q 1 4)).take 1000))) ∧
      (served 6 → q.length = 2 → 1 ≤ s.stage →
        (s.fget R.EPCFG_LOCK = 1 ∨ 4095 < ep → exec (.setepbase via) s = .next (mbEnd s via 3 [])) ∧
        (s.fget R.EPCFG_LOCK = 0 → ep ≤ 4095 → ∃ t, exec (.setepbase via) s = .next t ∧ t.fget R.EPCFG_EPBASE = ep ∧
          t.epSet = true ∧ t.sec.mbq = s.sec.mbq.tail)) ∧
      (served 7 → q.length = 2 → s.stage = 3 →
        let old := if k = 0 then s.sec.fw else s.sec.kg
        let top := s.fget (if k = 0 then R.BOOTSTAT_SVN else R.BOOTSTAT_KGEN)
        (1 < k ∨ s.anyJob = true ∨ v ≤ old ∨ top < v → exec (.rbcommit via) s = .next (mbEnd s via 3 [])) ∧
        (k ≤ 1 → s.anyJob = false → old < v → v ≤ top → ∃ t, exec (.rbcommit via) s = .next t ∧
          (k = 0 → t.sec.kg = s.sec.kg) ∧ (k = 1 → t.sec.fw = s.sec.fw) ∧
          let new := if k = 0 then t.sec.fw else t.sec.kg
          ((new = v ∧ t.reports = s.reports ∧ (via = .sideband → t.sec.sb.resp = some (0, [BitVec.ofNat 8 v]))) ∨
           (old ≤ new ∧ new < v ∧ t.fget R.STAGESTAT_FAIL = 1 ∧
            ∃ r, t.reports = s.reports ++ [r] ∧ r.cls = .grave ∧ r.det = 0x49 ∧ r.cause = 2))))) ∧
    (s.reaches req R.FLCTL →
      let free := s.fget R.FLSTAT_BUSY = 0 ∧ ¬ (2 ≤ s.stage ∧ s.fget R.FLSTAT_SLOT = s.fget R.BOOTSTAT_SLOT)
      (free → ∃ t u, exec (.flashErase req addr) s = .next t ∧ exec (.flashProgram req addr) s = .next u ∧
        t.sec.flop = some ⟨s.fget R.FLSTAT_SLOT, addr % 2 ^ 27, none⟩ ∧
        u.sec.flop = some ⟨s.fget R.FLSTAT_SLOT, addr % 2 ^ 27, some (flbuf s)⟩ ∧
        t.fget R.FLSTAT_BUSY = 1 ∧ u.fget R.FLSTAT_BUSY = 1 ∧ t.sec.flash = s.sec.flash ∧ u.sec.flash = s.sec.flash) ∧
      (¬ free → ∃ t u, exec (.flashErase req addr) s = .next t ∧ exec (.flashProgram req addr) s = .next u ∧
        t.sec = s.sec ∧ u.sec = s.sec ∧ t.fget R.FLSTAT_REF = 1 ∧ u.fget R.FLSTAT_REF = 1)) ∧
    (∀ o, s.sec.flop = some o → ∀ ok, ∃ t, exec (.flashOpComplete ok) s = .next t ∧ t.sec.flop = none ∧
      t.fget R.FLSTAT_BUSY = 0 ∧ (ok = false → t.fget R.FLSTAT_ERR = 1) ∧
      (∀ sl pg, (∀ p ∈ o.pages, pageKey sl pg ≠ pageKey o.slot p) → flashPage t sl pg = flashPage s sl pg) ∧
      (ok = true → o.data = none → ∀ p ∈ o.pages, flashPage t o.slot p = List.replicate 256 0xFF) ∧
      (∀ d, ok = true → o.data = some d → d.length = 256 → (flashPage s o.slot (o.addr / 256)).length = 256 →
        ∀ j, j < 256 → (flashPage s o.slot (o.addr / 256)).getD j 0 = 0xFF →
          (flashPage t o.slot (o.addr / 256)).getD j 0 = d.getD j 0))

/-- SPDM requests over the DOE mailbox and what each is answered with (R755, R760, R761, R762, R763, R764, R765, R766,
R767). Rests on log entries 63, 71, 74, the model's reading or choice. -/
def Obligations.AttestationRequests : Prop :=
  ∀ (data : List Byte) (s : State),
    (s.sec.base = true → s.grave = false → spdmUp s = false →
      exec (.getMeasurements data) s = .next (s.emit (.spdm (errorMsg 3 0 [])))) ∧ (spdmUp s = true →
    let slot := reqByte data 2 % 16
    let d := s.sec.spdm
    (s.sec.spdm.xfer = 0 →
      let ans (c : Instr) (m : List Byte → State → Prop) : Prop := (∃ t r, exec c s = .next t ∧
        t.out = s.out ++ [.spdm r] ∧ m r t ∧ t.regs = s.regs ∧ t.mem = s.mem);
      ans (.getVersion data) (fun r t => r = [0x10, 4, 0, 0, 0, 1, 0, 0x13] ∧ t.sec.spdm.signed = none) ∧
      (imgNat data 12 4 = 0 ∨ 42 ≤ imgNat data 12 4 → ans (.getCapabilities data) fun r t =>
        r.length = 20 ∧ r.take 4 = [0x13, 0x61, 0, 0] ∧ (r.drop 8).take 4 = leBytes 4 0x20036 ∧
        t.sec.spdm.xfer = imgNat data 12 4) ∧
      ans (.negotiateAlgorithms data) (fun r _ => r.length = 36 ∧ r.take 4 = [0x13, 0x63, 0, 0] ∧
        (r.drop 8).take 12 = leBytes 4 4 ++ leBytes 4 8 ++ leBytes 4 2) ∧
      ans (.getDigests data) (fun r _ => r = message 0x01 7 7
        (sha384 (chainOf s 0) ++ sha384 (chainOf s 1) ++ sha384 (chainOf s 2))) ∧
      (slot ≤ 2 → imgNat data 4 2 ≤ (chainOf s slot).length → ans (.getCertificate data) fun r _ =>
        let p := ((chainOf s slot).drop (imgNat data 4 2)).take (imgNat data 6 2)
        r = message 0x02 slot 0
          (leBytes 2 p.length ++ leBytes 2 ((chainOf s slot).length - imgNat data 4 2 - p.length) ++ p)) ∧
      (slot ≤ 2 → reqByte data 3 ∈ [0, 1, 0xFF] → ans (.challenge data) fun r t => ∃ n sig, n.length = 32 ∧ sig.length = 384 ∧
        let m := message 0x03 slot 7 (sha384 (chainOf s slot) ++ n ++ (if reqByte data 3 = 0 then [] else summaryHash s) ++
          [0, 0] ++ requesterContext data 36)
        r = m ++ sig ∧ t.sec.spdm.signed = some (sha384 (d.vca ++ d.certs ++ data ++ m)) ∧
        t.sec.spdm.ready = false) ∧
      (2 < slot ∨ reqByte data 3 ∉ [0, 1, 0xFF] → ans (.challenge data) (fun r _ => r = errorMsg 1 0 [])) ∧
      (s.fget R.STAGESTAT_BORDERSEEN = 0 → ans (.getMeasurements data) (fun r _ => r = errorMsg 3 0 [])) ∧
      (∀ m, s.fget R.STAGESTAT_BORDERSEEN = 1 → reqByte data 3 ≠ 0 → reqByte data 3 ≠ 0xFF →
        measurement s (reqByte data 3) = some m → ans (.getMeasurements data) fun r t =>
          let b := [BitVec.ofNat 8 (reqByte data 3), 1] ++ leBytes 2 (m.length + 3) ++
            [if reqByte data 3 ∈ [2, 4, 6] then 0 else 0x80] ++ leBytes 2 m.length ++ m
          ∃ n sig, n.length = 32 ∧
            let w := message 0x60 0 0 ([1] ++ leBytes 3 b.length ++ b ++ n ++ [0, 0] ++
              requesterContext data (if reqByte data 2 % 2 = 1 then 37 else 4))
            r = w ++ sig ∧
            (reqByte data 2 % 2 = 0 → sig = [] ∧ t.sec.spdm.signed = none) ∧
            (reqByte data 2 % 2 = 1 → sig.length = 384 ∧
              t.sec.spdm.signed = some (sha384 (d.vca ++ d.meas ++ data ++ w)))) ∧
      ans (.spdmUnsupported data) (fun r _ => r = errorMsg 7 (reqByte data 1) []) ∧
      (companionAsked data = false → ans (.vendorDefinedRequest data) (fun r _ => r = errorMsg 7 0xFE [])) ∧
      (companionAsked data = true →
        (d.signed = none → ans (.vendorDefinedRequest data) (fun r _ => r = errorMsg 4 0 [])) ∧
        (∀ h, d.signed = some h → d.ready = false → ans (.vendorDefinedRequest data) fun r t =>
          r.take 3 = [0x13, 0x7F, 0x42] ∧ t.sec.spdm = { d with asked := true, meas := [] }) ∧
        (∀ h, d.signed = some h → d.ready = true → ans (.vendorDefinedRequest data) fun r t =>
          ∃ body sig, sig.length = 7856 ∧ body = [0x01] ++ h ++ sig ∧ t.sec.spdm.signed = none ∧
            r = message 0x7E 0 0 (leBytes 2 3 ++ [2] ++ leBytes 2 Config.vendor.toNat ++ leBytes 2 body.length ++ body))) ∧
      let seq := imgNat data 4 2
      let piece := (data.drop (if seq = 0 then 16 else 12)).take (imgNat data 8 4)
      let whole := if seq = 0 then piece else d.chunkIn ++ piece
      (seq ≠ 0 → seq ≠ d.inNext → ans (.chunkSend data) (fun r _ => r = errorMsg 1 0 [])) ∧
      (seq = 0 ∨ seq = d.inNext → reqByte data 2 % 2 = 0 → ans (.chunkSend data) fun r t =>
        r = message 0x05 0 (reqByte data 3) (leBytes 2 seq) ∧ t.sec.spdm.chunkIn = whole ∧ t.sec.spdm.inNext = seq + 1) ∧
      (seq = 0 ∨ seq = d.inNext → reqByte data 2 % 2 = 1 → reqByte whole 1 = 0x84 → ans (.chunkSend data) fun r t =>
        r = message 0x05 0 (reqByte data 3) (leBytes 2 seq ++ [0x10, 4, 0, 0, 0, 1, 0, 0x13]) ∧
        t.sec.spdm.chunkIn = [])) ∧
    (let m := message 0x01 7 7 (sha384 (chainOf s 0) ++ sha384 (chainOf s 1) ++ sha384 (chainOf s 2))
     0 < d.xfer → d.xfer < m.length → ∃ t, exec (.getDigests data) s = .next t ∧
      t.out = s.out ++ [.spdm (errorMsg 0x0F 0 [BitVec.ofNat 8 (d.handle + 1)])] ∧ t.sec.spdm.chunkOut = m ∧
      t.sec.spdm.handle = (d.handle + 1) % 256) ∧
    (16 < d.xfer → d.chunkOut ≠ [] → imgNat data 4 2 = 0 → reqByte data 3 = d.handle → ∃ t, exec (.chunkGet data) s = .next t ∧
      let p := d.chunkOut.take (d.xfer - 16)
      t.out = s.out ++ [.spdm (message 0x06 (if d.chunkOut.length ≤ p.length then 1 else 0) d.handle
        ([0, 0, 0, 0] ++ leBytes 4 p.length ++ leBytes 4 d.chunkOut.length ++ p))]) ∧
    (d.asked = true → exec .companionSignatureReady s = .next (setSpdm s { d with ready := true })))

/-- Which report the Fault Hub takes, what it does, what stops, and the automatic warm reset (R773, R774, R777, R778,
R780, R784, R788, R791, R792, R794, R795, R813). Rests on log entries 19, 76, 78, the model's reading or choice. -/
def Obligations.FaultHubTakesReports : Prop :=
  ∀ s : State,
    (∀ r l, s.reports = r :: l → ∃ q, nextReport s.reports = some q ∧ q ∈ s.reports ∧ q.cyc = r.cyc ∧
      ∀ p ∈ s.reports.takeWhile (·.cyc == r.cyc), q.coll ≤ p.coll) ∧
    (∀ r, nextReport s.reports = some r → ∃ t, exec .faultReport s = .next t ∧
      let q := r.settled
      let k := clsNum q.cls
      (t.rd (R.FHCNT (min 5 q.coll) k)).toNat = min 0xFFFFFFFF ((s.rd (R.FHCNT (min 5 q.coll) k)).toNat + 1) ∧
      (s.fget (R.FHFIRST_VALID k) = 0 → t.fget (R.FHFIRST_VALID k) = 1 ∧ t.fget (R.FHFIRST_INJ k) = (if q.inj then 1 else 0) ∧
        t.fget (R.FHSRC_SRC k) = q.det % 256 * 65536 + q.unit % 256 * 256 + q.cause % 256 ∧
        (tget {} t.captures k).addr = q.addr ∧ (tget {} t.captures k).time = q.time) ∧
      (s.fget (R.FHFIRST_VALID k) = 1 → t.fget (R.FHFIRST_MORE k) = 1 ∧ t.rd (R.FHSRC k) = s.rd (R.FHSRC k)) ∧
      (q.cls = .notice ∨ q.cls = .corrected ∨ q.cls = .contained →
        t.reports = s.reports.erase r ∧ t.mem = s.mem ∧ t.cores = s.cores ∧ t.ctrs = s.ctrs ∧ t.jobD = s.jobD ∧ t.jobT = s.jobT ∧
        t.rd R.FHSTAT = s.rd R.FHSTAT) ∧
      (q.cls = .notice → t.fget R.FHPEND_NOTICE = 1) ∧ (q.cls = .corrected → t.fget R.FHPEND_CORR = 1) ∧
      (q.cls = .contained → ∃ b, contBit q.party = some b ∧
        t.rd R.FHCONT = s.rd R.FHCONT ||| BitVec.ofNat 32 (2 ^ b)) ∧
      (q.cls = .device → t.fget R.FHPEND_DEVICE = 1 ∧ (s.fget R.FHSTAT_STATE = 0 → t.fget R.FHSTAT_STATE = 1 ∧
        t.sec.stopAt = some (s.clk.tenths, s.fget R.FHCFG_WRDLY))) ∧
      (q.cls = .grave → t.fget R.FHPEND_GRAVE = 1 ∧ t.fget R.FHSTAT_STATE = 2 ∧
        (s.fget R.FHSTAT_STATE ≠ 2 → t.sec.keys = false ∧ t.sec.stopAt = none))) ∧
    (∀ c : Fin 6, s.sec.base = true → c = 4 ∨ s.sec.begun = true →
      ∃ t r, exec (.collectorSilent c) s = .next t ∧ bitOf (t.fget R.FHSTAT_SILENT) c = true ∧
        t.reports = s.reports ++ [r] ∧ r.cls = .device ∧ r.det = 0x4C ∧ r.unit = c.val) ∧
    (∀ (k : Fin 5) u, s.sec.base = true →
      (collUp s (lockColl k u) = true → ∃ t r, exec (.lockTamper k u) s = .next t ∧ t.reports = s.reports ++ [r] ∧
        r.cls = .grave ∧ r.det = 0x4A ∧ r.unit = k.val ∧ r.coll = lockColl k u ∧ t.mem = s.mem) ∧
      (collUp s (lockColl k u) = false → exec (.lockTamper k u) s = .next s)) ∧
    (s.grave = true → ∀ c ∈ [Instr.roundBoundary, .windowBoundary, .missedEdge, .roundOutPulse, .loadDone, .unloadDrained,
        .withyMessageDelivery, .withyStoreDelivery, .withyErrorReturn, .batchComplete, .recordDelivery, .idigComplete,
        .sealWrite, .headSigning, .signedEntryWrite, .stepCommit, .voteTimeout, .localSendSent, .remoteTimeout,
        .epochHoldRelease], exec c s = .next s) ∧
    (∀ t0 ms, s.sec.stopAt = some (t0, ms) →
      (s.fget R.FHCFG_AUTOWR = 1 → s.fget R.FHSTAT_STATE = 1 → s.fget R.FHSTAT_WRCNT < 3 → s.reports = [] →
        s.sec.base = true → ∃ t, exec .autoWarmReset s = .next t ∧ t.jobD = none ∧ t.jobT = none ∧
          t.fget R.FHSTAT_STATE = 0 ∧ t.fget R.FHSTAT_WRCNT = s.fget R.FHSTAT_WRCNT + 1 ∧ t.sec.stopAt = none ∧
          (s.round.win = none → t.rd R.FHCONT = s.rd R.FHCONT ∧ t.captures = s.captures)) ∧
      (s.fget R.FHCFG_AUTOWR = 0 ∨ s.fget R.FHSTAT_STATE ≠ 1 ∨ s.fget R.FHSTAT_WRCNT = 3 →
        ∃ t, exec .autoWarmReset s = .next t ∧ t.sec.stopAt = none ∧ t.rd R.FHSTAT = s.rd R.FHSTAT ∧
          t.jobD = s.jobD ∧ t.jobT = s.jobT ∧ t.mem = s.mem))

/-- Fencing in service and reclaim, the Hub's clears, the test lock and the injection slots (R787, R796, R797, R798, R800,
R803, R804, R805, R811, R814). Rests on log entries 21, 77, the model's reading or choice. -/
def Obligations.FencingInjectionAndHubRows : Prop :=
  ∀ (req : Req) (n : SlotId) (idx : Nat) (s : State),
    let isFenced (t : State) (kind : Nat) : Prop :=
      (tget none t.sec.fencedAt (fenceKey kind idx) = some s.clk.tenths ∧
       (kind = 0 → bitOf t.fenceCores idx = true ∧ t.fget R.CAPSTAT_NFSV = (s.fget R.CAPSTAT_NFSV + 1) % 256) ∧
       (kind = 1 → t.fenceChans = s.fenceChans ||| 2 ^ idx ∧ t.mem = s.mem) ∧
       (kind = 2 → t.fencePorts = s.fencePorts ||| 2 ^ idx ∧ t.fget (R.LNKSTAT_STATE idx) = stDisabled))
    let fresh (kind : Nat) : Prop :=
      ((kind = 0 ∧ idx < 128 ∧ bitOf s.fenceCores idx = false) ∨ (kind = 1 ∧ idx < 96 ∧ bitOf s.fenceChans idx = false) ∨
       (kind = 2 ∧ idx < 24 ∧ bitOf s.fencePorts idx = false))
    (∀ kind : Fin 3, fresh kind → unstopped s kind idx = true →
      ∃ t, exec (.drainTimeout kind idx) s = .next t ∧ (onGrid (drainDue s kind idx) ≤ s.clk.tenths → isFenced t kind) ∧
        (s.clk.present = true → drainDue s kind idx ≤ t.clk.tenths) ∧
        tget none t.sec.fencedAt (fenceKey kind idx) = some t.clk.tenths ∧ (kind = 0 → bitOf t.fenceCores idx = true) ∧
        (kind = 1 → t.fenceChans = s.fenceChans ||| 2 ^ idx) ∧ (kind = 2 → t.fencePorts = s.fencePorts ||| 2 ^ idx)) ∧
    (∀ (kind : Fin 4) (i : Fin 128), idx = i.val → s.reaches req R.FHFNC → s.unarmed →
      (fresh kind → ∃ t, exec (.fhfncGo req kind i) s = .next t ∧ isFenced t kind ∧
        t.fget R.FHFNC_KIND = kind.val ∧ t.fget R.FHFNC_INDEX = idx) ∧
      (kind = 3 → ∃ t, exec (.fhfncGo req kind i) s = .next t ∧ t.fget R.FHFNC_KIND = s.fget R.FHFNC_KIND ∧
        (fenceIdx (s.fget R.FHFNC_KIND) idx = true → t.fget R.FHFNC_INDEX = idx ∧ ∃ r q, t.reports = s.reports ++ r :: q ∧
          r.cls = .notice ∧ r.det = 0x01)) ∧
      ((kind = 1 ∧ 96 ≤ idx) ∨ (kind = 2 ∧ 24 ≤ idx) → ∃ t r q, exec (.fhfncGo req kind i) s = .next t ∧
        t.fget R.FHFNC_KIND = kind.val ∧ t.fget R.FHFNC_INDEX = s.fget R.FHFNC_INDEX ∧ t.reports = s.reports ++ r :: q ∧
        r.cls = .notice ∧ r.det = 0x01)) ∧
    (∀ (kind : Fin 3) t0, tget none s.sec.fencedAt (fenceKey kind idx) = some t0 →
      (s.armedSlot 0x4D idx [2] 0 = none → ∃ t, exec (.reclaim kind idx) s = .next t ∧ tget none t.sec.fencedAt (fenceKey kind idx) = none ∧
        (kind = 0 → (t.core idx).infl = [] ∧ ∀ i ∈ t.withy, i.src.1 ≠ idx) ∧
        (kind = 1 → onGrid (t0 + s.fget R.FHCFG_DRTO * 100000) ≤ s.clk.tenths → t = dmaAbort
          (dropMerged { s with sec := { s.sec with fencedAt := tdel s.sec.fencedAt (fenceKey kind idx) } }
            (fenceKey kind idx)) idx)) ∧
      (∃ t q r, exec (.reclaimTimeout kind idx) s = .next t ∧ tget none t.sec.fencedAt (fenceKey kind idx) = none ∧
        t.reports = s.reports ++ q ++ [r] ∧ (s.round.win = none → q = []) ∧ r.cls = .device ∧ r.det = 0x4D ∧ r.cause = 2)) ∧
    (∀ k : Fin 5, s.reaches req (R.FHFIRST k) → ∃ t, exec (.fhfirstClear req k) s = .next t ∧
      (k = 4 → t = s) ∧ (k ≠ 4 → t.rd (R.FHFIRST k) = 0 ∧ t.rd (R.FHSRC k) = 0 ∧ t.rd (R.FHMST k) = 0 ∧
        tget {} t.captures k = {} ∧ ∀ o, o ≠ R.FHFIRST k → o ≠ R.FHSRC k → o ≠ R.FHMST k → t.rd o = s.rd o)) ∧
    (∀ mask, s.reaches req R.FHCONT → ∃ t, exec (.fhcontClear req mask) s = .next t ∧ s.regsBut t [R.FHCONT] ∧
      t.rd R.FHCONT = s.rd R.FHCONT &&& ~~~mask) ∧
    (s.unarmed → s.reaches req R.TLCTL →
      (s.fget R.TLCTL_LOCK = 0 → exec (.tlctlOpen req true) s = .next (s.fset R.TLCTL_OPEN 1) ∧
        ∃ t, exec (.tlctlOpen req false) s = .next t ∧ t.fget R.TLCTL_OPEN = 0 ∧ t.unarmed) ∧
      (s.fget R.TLCTL_LOCK = 1 → ∃ t r, exec (.tlctlOpen req true) s = .next t ∧ t.rd R.TLCTL = s.rd R.TLCTL ∧
        (t.rd R.LOCKREF).toNat = min 0xFFFFFFFF ((s.rd R.LOCKREF).toNat + 1) ∧ t.reports = s.reports ++ [r] ∧
        r.cls = .notice ∧ r.det = 0x02 ∧ r.cause = 2)) ∧
    (s.reaches req R.TLCTL → ∃ t, exec (.tlctlLock req) s = .next t ∧ t.fget R.TLCTL_LOCK = 1 ∧
      t.fget R.TLCTL_OPEN = 0 ∧ t.unarmed ∧ t.mem = s.mem) ∧
    (s.armedSlot 0x02 11 [2] 0 = none → s.reaches req (R.INJCTL n) →
      (s.fget R.TLCTL_OPEN = 1 →
        let taken := ∃ m, m < 16 ∧ s.fget (R.INJSTAT_ARMED m) = 1 ∧
          (s.point m).1.toNat / 65536 = (s.rd (R.INJSEL n)).toNat / 65536
        (¬ taken → s.fget (R.INJSEL_DET n) ∈ detectors → ∃ t, exec (.injctlArm req n) s = .next (checkNow t n) ∧
          (s.fget (R.INJSEL_DET n) ∉ [0x4A, 0x4B, 0x4C, 0x4E, 0x4F] → checkNow t n = t) ∧
          (∀ o, o ≠ R.INJSTAT n → t.rd o = s.rd o) ∧ t.fget (R.INJSTAT_ARMED n) = 1 ∧
          t.point n = (s.rd (R.INJSEL n), tget 0 s.injAddr n)) ∧
        (taken ∨ s.fget (R.INJSEL_DET n) ∉ detectors → exec (.injctlArm req n) s = .next (s.fset (R.INJSTAT_REJ n) 1)) ∧
        exec (.injctlDisarm req n) s = .next (s.fset (R.INJSTAT_ARMED n) 0)) ∧
      (s.fget R.TLCTL_OPEN = 0 → ∃ r, exec (.injctlArm req n) s = .next { s with reports := s.reports ++ [r] } ∧
        exec (.injctlDisarm req n) s = .next { s with reports := s.reports ++ [r] } ∧
        r.cls = .notice ∧ r.det = 0x02 ∧ r.cause = 2))

/-- Power samples, the cap, the brake, temperatures, and the faults of supplies and clocks (R46, R818, R821, R822, R825,
R826, R828, R829, R832, R833, R834, R835). Rests on log entries 3, 5, 57, 58, 59, the model's reading or choice. -/
def Obligations.PowerClocksAndTemperatures : Prop :=
  ∀ s : State, s.sec.base = true → s.unarmed →
    let shows (t : State) : Prop := (∀ d, d < 4 →
      t.fget (R.VFSTAT_PT d) = effPoint t d ∧ t.fget (R.VFSTAT_CAUSE d) = limiter t d)
    let onlyReport (c : Instr) (cls : Cls) (det unit cause : Nat) : Prop := (∃ r,
      exec c s = .next { s with reports := s.reports ++ [r] } ∧ r.cls = cls ∧ r.det = det ∧ r.unit = unit ∧
      r.cause = cause)
    (∀ w, w ≤ 4000 → exec (.powerSample w) s =
      .next { s with pw := { s.pw with sum := s.pw.sum + w, count := s.pw.count + 1 } }) ∧
    (∀ w, 4000 < w → ∃ t r, exec (.powerSample w) s = .next t ∧ t.fget R.PWRSTAT_OVER = 1 ∧ shows t ∧
      (∀ d, d < 4 → capPoint t d = capPoint s d - 2) ∧ t.reports = s.reports ++ [r] ∧ r.cls = .notice ∧
      r.det = 0x4F ∧ r.cause = 3 ∧ t.pw.sum = s.pw.sum + w ∧ t.mem = s.mem) ∧
    (s.pw.count = 0 → exec .powerCapInterval s = .next s) ∧
    (0 < s.pw.count → ∃ t, exec .powerCapInterval s = .next t ∧ t.pw.sum = 0 ∧ t.pw.count = 0 ∧ t.mem = s.mem ∧
      let pin := min 65535 (s.pw.sum / s.pw.count)
      t.fget R.PWRSTAT_PIN = pin ∧
      (s.fget R.PCCFG_CAP < pin → t.pw.low = 0 ∧ shows t ∧ ∀ d, d < 4 → capPoint t d = capPoint s d - 1) ∧
      (pin + 100 ≤ s.fget R.PCCFG_CAP → 9 ≤ s.pw.low → shows t ∧ ∀ d, d < 4 → capPoint t d = min 15 (capPoint s d + 1)) ∧
      (pin + 100 ≤ s.fget R.PCCFG_CAP → s.pw.low < 9 → t.pw.low = s.pw.low + 1 ∧ t.pw.cap = s.pw.cap) ∧
      (pin ≤ s.fget R.PCCFG_CAP → s.fget R.PCCFG_CAP < pin + 100 → t.pw.low = 0 ∧ t.pw.cap = s.pw.cap)) ∧
    (∀ d : DieId,
      let due := (tget none s.pw.riseAt d).getD s.clk.tenths + 100000
      (s.grave = false → presentPoint s d < effPoint s d → ∃ t, exec (.vfRiseStep d) s = .next t ∧ presentPoint t d = presentPoint s d + 1 ∧
        t.fget (R.VFSTAT_FREQ d) = vfFreq s d (presentPoint s d + 1) ∧
        tget 0 t.pw.volt d = vfVolt t d (presentPoint t d + if presentPoint t d < effPoint t d then 1 else 0) ∧ (s.clk.present = true → due ≤ t.clk.tenths) ∧
        (onGrid due ≤ s.clk.tenths → ∀ o, o ≠ R.VFSTAT d → t.rd o = s.rd o)) ∧
      (s.grave = true ∨ effPoint s d ≤ presentPoint s d → exec (.vfRiseStep d) s = .next s)) ∧
    (s.fget R.PWRSTAT_BRAKE = 0 → ∃ t r, exec .brakeEngage s = .next t ∧ t.fget R.PWRSTAT_BRAKE = 1 ∧
      t.pw.limit = true ∧ shows t ∧
      (∀ d, d < 4 → effPoint t d ≤ s.fget R.PBRKCFG_BRKPT ∧ presentPoint t d ≤ presentPoint s d ∧
        presentPoint t d ≤ effPoint t d) ∧
      t.reports = s.reports ++ [r] ∧ r.cls = .notice ∧ r.det = 0x4F ∧ r.cause = 4) ∧
    (s.fget R.PWRSTAT_BRAKE = 1 → ∃ t, exec .brakeRelease s = .next t ∧ t.fget R.PWRSTAT_BRAKE = 0 ∧
      t.pw = { s.pw with holdAt := some s.clk.tenths } ∧ s.reports = t.reports) ∧
    (∀ t0, s.pw.holdAt = some t0 → ∃ t, exec .brakeHoldExpiry s = .next t ∧ t.pw.limit = false ∧ t.pw.holdAt = none ∧
      shows t ∧ (s.clk.present = true → t0 + s.fget R.PBRKCFG_HOLD * 100000 ≤ t.clk.tenths)) ∧
    (∀ l : List (Option Nat), (∀ k, k < 98 → (l[k]?).join.isSome = true ∧ bitOf s.pw.failed k = false) →
      ∃ t, exec (.thermalSample l) s = .next t ∧ shows t ∧ t.pw.failed = s.pw.failed ∧
        (∀ h, hottest (reading s l) (upto 88) = some h →
          t.fget R.THSTAT_TPEAK = h.1 % 256 ∧ t.fget R.THSTAT_TSRC = h.2) ∧
        (∀ d h, d < 4 → hottest (dieReading s l) (dieSensors d) = some h →
          thermalPoint t d = pointOf (s.fget R.THCFG_TTHR) (s.fget R.THCFG_TMAX) h.1) ∧
        (t.fget R.THSTAT_THROT = 1 ↔ ∃ d, d < 4 ∧ thermalPoint t d < 15) ∧
        ((alertSensor s l).isSome = true → t.fget R.THSTAT_ALERT = 1) ∧
        (alertSensor s l = none → t.fget R.THSTAT_ALERT = s.fget R.THSTAT_ALERT)) ∧
    (∀ k, k < 88 → s.pw.tripped = false → ∃ t, exec (.thermalTrip k) s = .next t ∧
      thermtripLow t = true ∧ t.fget R.STAGESTAT_STAGE = 1 ∧ t.cores = [] ∧ t.ctrs = [] ∧ t.jobD = none ∧ t.jobT = none ∧
      (∀ a, t.ld a 1 = if cxlMem a then s.ld a 1 else [0]) ∧
      (collUp s (tripUnit k) = false → t.reports = s.reports) ∧
      (collUp s (tripUnit k) = true → ∃ r, t.reports = s.reports ++ [r] ∧ r.cls = .grave ∧
        r.det = 0x4B ∧ r.unit = tripUnit k)) ∧
    (∀ rail c, s.sec.begun = true → rail ≤ 0x0B → 1 ≤ c → c ≤ 3 → onlyReport (.railFault rail c) .device 0x4E rail c) ∧
    (s.sec.in54 = true → onlyReport .input54vNearLimit .notice 0x4F 0xFF 6) ∧
    (∀ k, s.sec.begun = true → 0x10 ≤ k → k ≤ 0x14 → onlyReport (.clockLoss k) .device 0x4E k 4) ∧
    (s.clk.present = true → ∃ t r, exec (.clockLoss 0x15) s = .next t ∧ t.clk = { s.clk with present := false } ∧
      t.regs = s.regs ∧ t.reports = s.reports ++ [r] ∧ r.cls = .device ∧ r.det = 0x4E ∧ r.cause = 5) ∧
    (s.clk.started = false → exec .linkRefClockDetect s = .next { s with clk := { present := true, started := true, tenths := 0, base := 0 } }) ∧
    (s.clk.started = true → exec .linkRefClockReturn s = .next { s with clk := { s.clk with present := true } })

/-- Sideband write and read transfers, their checks, and the two address commands (R702, R768, R853, R854, R855, R856).
Rests on log entries 62, 75, the model's reading or choice. -/
def Obligations.SidebandFramesAndAddresses : Prop :=
  ∀ (data : List Byte) (s : State),
    let rows : List Instr :=
      [.sbMailboxFrame data, .sbRegisterRead data, .sbRegisterWrite data, .sbReservedFrame data]
    let mine : Prop := s.sec.base = true ∧ s.sec.sb.busy = false ∧ reqByte data 0 = sbAddr s * 2
    let whole : Prop := 5 ≤ data.length ∧ pec data.dropLast = reqByte data (data.length - 1)
    let fits : Prop := imgNat data 2 2 = data.length - 5
    let p := (data.drop 4).take (data.length - 5)
    let off := imgNat p 0 4
    (∀ c ∈ rows, (¬ mine → exec c s = .next s) ∧
      (mine → ¬ whole → exec c s = .next (sbRespond s 0xFD [])) ∧
      (mine → whole → ¬ fits → exec c s = .next (sbRespond s 2 []))) ∧
    (∀ c ∈ rows, mine → whole → fits →
      (reqByte data 1 = 1 → 1 ≤ p.length → p.length ≤ 1025 →
        (1 ≤ reqByte p 0 → reqByte p 0 ≤ 8 → ∃ t, exec c s = .next t ∧
          t.sec.mbq = s.sec.mbq ++ [.sideband] ∧ mbOp t .sideband = reqByte p 0 ∧ mbReq t .sideband = p.tail ∧
          t.sec.sb.busy = true ∧ t.sec.sb.resp = none ∧ t.regs = s.regs ∧ t.mem = s.mem) ∧
        (8 < reqByte p 0 ∨ reqByte p 0 = 0 →
          exec c s = .next (sbRespond s (if s.grave then 3 else 1) []))) ∧
      (reqByte data 1 = 2 → p.length = 4 →
        (sbReach off = false → exec c s = .next (sbRespond s 3 [])) ∧
        (sbReach off = true → exec c s =
          .next (sbRespond s 0 (leBytes 4 (readReg s .msp (off / 4 * 4)).toNat)))) ∧
      (reqByte data 1 = 3 → p.length = 8 →
        (sbReach off = false → exec c s = .next (sbRespond s 3 [])) ∧
        (sbReach off = true → exec c s =
          .next (sbRespond (mspWrite s (off / 4 * 4) (imgNat p 4 4)) 0 [])) ∧
        (off = R.FHCONT → s.unarmed → 1 ≤ s.stage → ∃ t, exec c s = .next t ∧
          t.rd R.FHCONT = s.rd R.FHCONT &&& ~~~ BitVec.ofNat 32 (imgNat p 4 4) ∧ t.sec.sb.resp = some (0, [])) ∧
        (off = R.FHVEC → s.unarmed → 1 ≤ s.stage → ∃ t, exec c s = .next t ∧
          t.fget R.FHVEC_VEC = imgNat p 4 4 % 2048 ∧ t.sec.sb.resp = some (0, []))) ∧
      (reqByte data 1 ∉ [1, 2, 3] → exec c s = .next (sbRespond s 1 []))) ∧
    (s.sec.base = true → ∃ t st bs, exec .sbResponseRead s = .next t ∧ t.reply = .data (sbTransfer s st bs) ∧
      (s.sec.sb.busy = true → st = 0xFE ∧ bs = [] ∧ t.sec = s.sec) ∧
      (s.sec.sb.busy = false → s.sec.sb.resp = none → st = 0xFC ∧ bs = []) ∧
      (s.sec.sb.busy = false → ∀ r, s.sec.sb.resp = some r → st = r.1 ∧ bs = r.2 ∧ t.sec.sb.resp = none) ∧
      t.regs = s.regs ∧ t.mem = s.mem) ∧
    (∀ st bs, pec (BitVec.ofNat 8 (sbAddr s * 2 + 1) :: sbTransfer s st bs) = 0 ∧
      (sbTransfer s st bs).length = bs.length + 4) ∧
    (s.sec.base = true →
      (∀ a, a ≤ 127 → s.sec.sb.dyn = none → ∃ t, exec (.setdasa a) s = .next t ∧ sbAddr t = a ∧ t.regs = s.regs) ∧
      (∀ a d, s.sec.sb.dyn = some d → exec (.setdasa a) s = .next s) ∧
      ∃ t, exec .rstdaa s = .next t ∧ sbAddr t = staticAddr ∧ t.regs = s.regs)
end

