-- ==== Sys2Proof/Laws/Table.lean ====
section
/-! SUPPORT. Sys2Proof/Laws/Table.lean: reading sparse tables after a write, and the canonical form that writes keep. -/

namespace Sys2Proof.Machine

theorem tget_tdel_same {α : Type} (d : α) (t : Tab α) (k : Nat) : tget d (tdel t k) k = d := by
  induction t with
  | nil => rfl
  | cons e r ih =>
    obtain ⟨k', v⟩ := e
    by_cases h : k' = k <;> simp [tdel, tget, h, ih]

theorem tget_tdel_other {α : Type} (d : α) (t : Tab α) {k j : Nat} (h : j ≠ k) : tget d (tdel t k) j = tget d t j := by
  induction t with
  | nil => rfl
  | cons e r ih =>
    obtain ⟨k', v⟩ := e
    by_cases h1 : k' = k
    · simp [tdel, tget, h1, ih, Ne.symm h]
    · simp [tdel, tget, h1, ih]

theorem tget_tins_same {α : Type} (d : α) (t : Tab α) (k : Nat) (v : α) : tget d (tins t k v) k = v := by
  induction t with
  | nil => simp [tins, tget]
  | cons e r ih =>
    obtain ⟨k', v'⟩ := e
    simp only [tins]
    split
    · simp [tget]
    · split
      · simp [tget]
      · rename_i h1 h2; simp [tget, Ne.symm h2, ih]

theorem tget_tins_other {α : Type} (d : α) (t : Tab α) {k j : Nat} (v : α) (h : j ≠ k) :
    tget d (tins t k v) j = tget d t j := by
  induction t with
  | nil => simp [tins, tget, Ne.symm h]
  | cons e r ih =>
    obtain ⟨k', v'⟩ := e
    simp only [tins]
    split
    · simp [tget, Ne.symm h]
    · split
      · rename_i h1 h2; subst h2; simp [tget, Ne.symm h]
      · simp [tget, ih]

/-- What has been written reads back. -/
@[simp] theorem tget_tput_same {α : Type} [DecidableEq α] (d : α) (t : Tab α) (k : Nat) (v : α) :
    tget d (tput d t k v) k = v := by
  unfold tput
  split
  · next h => rw [tget_tdel_same, h]
  · exact tget_tins_same d t k v

/-- A write leaves every other entry as it was, whatever the default it removes. -/
theorem tget_tput_other {α : Type} [DecidableEq α] (d d' : α) (t : Tab α) {k j : Nat} (v : α) (h : j ≠ k) :
    tget d (tput d' t k v) j = tget d t j := by
  unfold tput
  split
  · exact tget_tdel_other d t h
  · exact tget_tins_other d t v h

theorem tget_tput {α : Type} [DecidableEq α] (d : α) (t : Tab α) (k j : Nat) (v : α) :
    tget d (tput d t k v) j = if j = k then v else tget d t j := by
  split
  · next h => subst h; simp
  · next h => exact tget_tput_other d d t v h

/-- The entries whose keys a test accepts. -/
theorem tget_filter_key {α : Type} (d : α) (p : Nat → Bool) (t : Tab α) (k : Nat) :
    tget d (t.filter fun e => p e.1) k = if p k then tget d t k else d := by
  induction t with
  | nil => simp [tget]
  | cons e r ih =>
    obtain ⟨k', v⟩ := e
    by_cases h : p k' <;> by_cases hk : k' = k
    · subst hk; simp [tget, h]
    · simp [tget, h, hk, ih]
    · subst hk; simp [h, ih]
    · simp [tget, h, hk, ih]

/-! ## The canonical form -/

/-- Every key lies above `k`. -/
def keysAbove {α : Type} (k : Nat) (t : Tab α) : Prop := ∀ e ∈ t, k < e.1

/-- The canonical form, entry by entry. -/
theorem tabWf_cons {α : Type} [DecidableEq α] (d : α) (k : Nat) (v : α) (r : Tab α) :
    tabWf d ((k, v) :: r) = true ↔ keysAbove k r ∧ v ≠ d ∧ tabWf d r = true := by
  induction r generalizing k v with
  | nil => simp [tabWf, keysAbove]
  | cons e r ih =>
    obtain ⟨k', v'⟩ := e
    have h := ih k' v'
    simp only [tabWf, Bool.and_eq_true, decide_eq_true_eq, Bool.not_eq_true', decide_eq_false_iff_not, h, keysAbove,
      List.mem_cons, forall_eq_or_imp]
    constructor
    · rintro ⟨⟨h1, h2⟩, h3, h4, h5⟩
      exact ⟨⟨h1, fun e he => Nat.lt_trans h1 (h3 e he)⟩, h2, h3, h4, h5⟩
    · rintro ⟨⟨h1, -⟩, h2, h3⟩
      exact ⟨⟨h1, h2⟩, h3⟩

theorem keysAbove_tdel {α : Type} {k j : Nat} {t : Tab α} (h : keysAbove j t) : keysAbove j (tdel t k) := by
  induction t with
  | nil => exact h
  | cons e r ih =>
    obtain ⟨k', v⟩ := e
    have hr : keysAbove j r := fun e he => h e (List.mem_cons_of_mem _ he)
    by_cases h1 : k' = k
    · simpa [tdel, h1] using ih hr
    · simp only [tdel, h1, if_false, keysAbove, List.mem_cons, forall_eq_or_imp]
      exact ⟨h _ List.mem_cons_self, ih hr⟩

theorem keysAbove_tins {α : Type} {k j : Nat} {v : α} {t : Tab α} (h : keysAbove j t) (hk : j < k) :
    keysAbove j (tins t k v) := by
  induction t with
  | nil => simpa [tins, keysAbove] using hk
  | cons e r ih =>
    obtain ⟨k', v'⟩ := e
    have hr : keysAbove j r := fun e he => h e (List.mem_cons_of_mem _ he)
    have h' := h _ List.mem_cons_self
    simp only [tins]
    split
    · simpa [keysAbove] using ⟨hk, h', fun a b he => hr (a, b) he⟩
    · split
      · simpa [keysAbove] using ⟨hk, fun a b he => hr (a, b) he⟩
      · simpa [keysAbove] using ⟨h', fun a b he => ih hr (a, b) he⟩

theorem tabWf_tdel {α : Type} [DecidableEq α] {d : α} {t : Tab α} (h : tabWf d t = true) (k : Nat) :
    tabWf d (tdel t k) = true := by
  induction t with
  | nil => rfl
  | cons e r ih =>
    obtain ⟨k', v⟩ := e
    rw [tabWf_cons] at h
    by_cases h1 : k' = k
    · simpa [tdel, h1] using ih h.2.2
    · simp only [tdel, h1, if_false]
      rw [tabWf_cons]
      exact ⟨keysAbove_tdel h.1, h.2.1, ih h.2.2⟩

theorem tabWf_tins {α : Type} [DecidableEq α] {d : α} {t : Tab α} (h : tabWf d t = true) (k : Nat) {v : α} (hv : v ≠ d) :
    tabWf d (tins t k v) = true := by
  induction t with
  | nil => simp [tins, tabWf, hv]
  | cons e r ih =>
    obtain ⟨k', v'⟩ := e
    have h' := (tabWf_cons d k' v' r).1 h
    simp only [tins]
    split
    · next hk =>
      rw [tabWf_cons]
      refine ⟨?_, hv, h⟩
      intro e he
      rcases List.mem_cons.1 he with rfl | he
      · exact hk
      · exact Nat.lt_trans hk (h'.1 e he)
    · split
      · next hk => subst hk; rw [tabWf_cons]; exact ⟨h'.1, hv, h'.2.2⟩
      · next h1 h2 => rw [tabWf_cons]; exact ⟨keysAbove_tins h'.1 (by omega), h'.2.1, ih h'.2.2⟩

/-- A write keeps the canonical form. -/
theorem tabWf_tput {α : Type} [DecidableEq α] {d : α} {t : Tab α} (h : tabWf d t = true) (k : Nat) (v : α) :
    tabWf d (tput d t k v) = true := by
  unfold tput
  split
  · exact tabWf_tdel h k
  · next hv => exact tabWf_tins h k hv

/-- A choice of entries keeps the canonical form. -/
theorem tabWf_filter {α : Type} [DecidableEq α] {d : α} {t : Tab α} (h : tabWf d t = true) (p : Nat × α → Bool) :
    tabWf d (t.filter p) = true := by
  induction t with
  | nil => rfl
  | cons e r ih =>
    obtain ⟨k', v⟩ := e
    rw [tabWf_cons] at h
    by_cases h1 : p (k', v)
    · rw [List.filter_cons_of_pos h1, tabWf_cons]
      exact ⟨fun e he => h.1 e (List.mem_filter.1 he).1, h.2.1, ih h.2.2⟩
    · rw [List.filter_cons_of_neg h1]
      exact ih h.2.2

theorem tget_of_keysAbove {α : Type} (d : α) {t : Tab α} {k j : Nat} (h : keysAbove k t) (hj : j ≤ k) : tget d t j = d := by
  induction t with
  | nil => rfl
  | cons e r ih =>
    obtain ⟨k', v⟩ := e
    have h' := h _ List.mem_cons_self
    have hne : k' ≠ j := by simp only at h'; omega
    simp [tget, hne, ih fun e he => h e (List.mem_cons_of_mem _ he)]

/-- Canonical tables that read alike are the same data. -/
theorem tab_ext {α : Type} [DecidableEq α] {d : α} {t u : Tab α} (ht : tabWf d t = true) (hu : tabWf d u = true)
    (h : ∀ k, tget d t k = tget d u k) : t = u := by
  induction t generalizing u with
  | nil =>
    cases u with
    | nil => rfl
    | cons e r =>
      obtain ⟨k, v⟩ := e
      rw [tabWf_cons] at hu
      have := h k
      simp [tget] at this
      exact absurd this.symm hu.2.1
  | cons e r ih =>
    obtain ⟨k, v⟩ := e
    rw [tabWf_cons] at ht
    cases u with
    | nil =>
      have := h k
      simp [tget] at this
      exact absurd this ht.2.1
    | cons e' r' =>
      obtain ⟨k', v'⟩ := e'
      have hu' := (tabWf_cons d k' v' r').1 hu
      have hk : k = k' := by
        rcases Nat.lt_trichotomy k k' with hlt | heq | hgt
        · have h1 := h k
          have h2 : tget d r' k = d := tget_of_keysAbove d hu'.1 (Nat.le_of_lt hlt)
          simp [tget, Nat.ne_of_gt hlt, h2] at h1
          exact absurd h1 ht.2.1
        · exact heq
        · have h1 := h k'
          have h2 : tget d r k' = d := tget_of_keysAbove d ht.1 (Nat.le_of_lt hgt)
          simp [tget, Nat.ne_of_gt hgt, h2] at h1
          exact absurd h1.symm hu'.2.1
      subst hk
      have hv : v = v' := by simpa [tget] using h k
      subst hv
      congr 1
      refine ih ht.2.2 hu'.2.2 fun j => ?_
      by_cases hj : j = k
      · subst hj
        rw [tget_of_keysAbove d ht.1 (Nat.le_refl _), tget_of_keysAbove d hu'.1 (Nat.le_refl _)]
      · simpa [tget, Ne.symm hj] using h j

/-! ## Rising sets -/

theorem mem_nins {l : List Nat} {n m : Nat} : m ∈ nins l n ↔ m = n ∨ m ∈ l := by
  induction l with
  | nil => simp [nins]
  | cons a r ih =>
    simp only [nins]
    split
    · simp
    · split
      · next h => subst h; simp
      · simp only [List.mem_cons, ih]; constructor <;> rintro (h | h | h) <;> simp [h]

end Sys2Proof.Machine
end

