-- ==== Sys2Proof/Laws/Register.lean ====
section
/-! SUPPORT. Sys2Proof/Laws/Register.lean: reading registers and fields after a write of a register, a field or a list of
registers. -/

namespace Sys2Proof.Machine

/-! ## Bit fields -/

theorem bitsOf_lt (n lo w : Nat) : bitsOf n lo w < 2 ^ w := Nat.mod_lt _ (Nat.two_pow_pos w)

/-- A field inside 32 bits does not see the bits above them. -/
theorem bitsOf_mod (n lo w : Nat) (h : lo + w ≤ 32) : bitsOf (n % 2 ^ 32) lo w = bitsOf n lo w := by
  have e : (2 : Nat) ^ 32 = 2 ^ lo * 2 ^ (32 - lo) := by rw [← Nat.pow_add]; congr 1; omega
  unfold bitsOf
  rw [e, Nat.mod_mul_right_div_self, Nat.mod_mod_of_dvd]
  exact Nat.pow_dvd_pow 2 (by omega)

/-- The field that was replaced. -/
theorem bitsOf_setBits_same (n lo w v : Nat) : bitsOf (setBits n lo w v) lo w = v % 2 ^ w := by
  unfold bitsOf setBits
  have h1 : n % 2 ^ lo < 2 ^ lo := Nat.mod_lt _ (Nat.two_pow_pos lo)
  have e : n % 2 ^ lo + v % 2 ^ w * 2 ^ lo + n / 2 ^ (lo + w) * 2 ^ (lo + w) =
      n % 2 ^ lo + 2 ^ lo * (v % 2 ^ w + 2 ^ w * (n / 2 ^ (lo + w))) := by
    rw [Nat.pow_add]; grind
  rw [e, Nat.add_mul_div_left _ _ (Nat.two_pow_pos lo), Nat.div_eq_of_lt h1, Nat.zero_add, Nat.add_mul_mod_self_left,
    Nat.mod_mod]

/-- A field below the one replaced. -/
theorem bitsOf_setBits_below (n lo w v lo' w' : Nat) (h : lo' + w' ≤ lo) :
    bitsOf (setBits n lo w v) lo' w' = bitsOf n lo' w' := by
  have e : setBits n lo w v = n % 2 ^ lo + 2 ^ lo * (v % 2 ^ w + 2 ^ w * (n / 2 ^ (lo + w))) := by
    unfold setBits; rw [Nat.pow_add]; grind
  have e' : n = n % 2 ^ lo + 2 ^ lo * (n / 2 ^ lo) := (Nat.mod_add_div n (2 ^ lo)).symm
  have k : ∀ a b : Nat, bitsOf (a + 2 ^ lo * b) lo' w' = bitsOf a lo' w' := by
    intro a b
    have e2 : (2 : Nat) ^ lo = 2 ^ lo' * (2 ^ w' * 2 ^ (lo - lo' - w')) := by
      rw [← Nat.pow_add, ← Nat.pow_add]; congr 1; omega
    unfold bitsOf
    rw [e2, Nat.mul_assoc, Nat.add_mul_div_left _ _ (Nat.two_pow_pos lo'), Nat.mul_assoc, Nat.add_mul_mod_self_left]
  rw [e, k, ← k (n % 2 ^ lo) (n / 2 ^ lo), ← e']

/-- A field above the one replaced. -/
theorem bitsOf_setBits_above (n lo w v lo' w' : Nat) (h : lo + w ≤ lo') :
    bitsOf (setBits n lo w v) lo' w' = bitsOf n lo' w' := by
  have e : setBits n lo w v / 2 ^ (lo + w) = n / 2 ^ (lo + w) := by
    have h1 : n % 2 ^ lo < 2 ^ lo := Nat.mod_lt _ (Nat.two_pow_pos lo)
    have h2 : v % 2 ^ w < 2 ^ w := Nat.mod_lt _ (Nat.two_pow_pos w)
    have h3 : n % 2 ^ lo + v % 2 ^ w * 2 ^ lo < 2 ^ (lo + w) := by
      calc n % 2 ^ lo + v % 2 ^ w * 2 ^ lo < 2 ^ lo + v % 2 ^ w * 2 ^ lo := by omega
        _ = (v % 2 ^ w + 1) * 2 ^ lo := by grind
        _ ≤ 2 ^ w * 2 ^ lo := Nat.mul_le_mul_right _ h2
        _ = 2 ^ (lo + w) := by rw [Nat.pow_add]; grind
    unfold setBits
    rw [Nat.add_mul_div_right _ _ (Nat.two_pow_pos _), Nat.div_eq_of_lt h3, Nat.zero_add]
  have k : ∀ m : Nat, m / 2 ^ lo' = m / 2 ^ (lo + w) / 2 ^ (lo' - (lo + w)) := by
    intro m
    rw [Nat.div_div_eq_div_mul, ← Nat.pow_add]; congr 2; omega
  unfold bitsOf
  rw [k, k n, e]

/-! ## Registers -/

@[simp] theorem State.rd_wr_same (s : State) (o : Nat) (v : W32) : (s.wr o v).rd o = v := by
  simp [State.rd, State.wr]

theorem State.rd_wr_other (s : State) {o p : Nat} (v : W32) (h : p ≠ o) : (s.wr o v).rd p = s.rd p := by
  simp only [State.rd, State.wr]
  exact tget_tput_other _ _ _ _ h

theorem State.rd_wr (s : State) (o p : Nat) (v : W32) : (s.wr o v).rd p = if p = o then v else s.rd p := by
  split
  · next h => subst h; simp
  · next h => exact s.rd_wr_other v h

theorem State.rd_fset_other (s : State) (f : Fld) (v : Nat) {p : Nat} (h : p ≠ f.off) : (s.fset f v).rd p = s.rd p :=
  s.rd_wr_other _ h

/-- A field reads back what was written, cut to its width. -/
theorem State.fget_fset_same (s : State) (f : Fld) (v : Nat) (h : f.lo + f.w ≤ 32) :
    (s.fset f v).fget f = v % 2 ^ f.w := by
  simp only [State.fget, State.fset, State.rd_wr_same, BitVec.toNat_ofNat]
  rw [bitsOf_mod _ _ _ h, bitsOf_setBits_same]

/-- Another field of the same register. -/
theorem State.fget_fset_disjoint (s : State) (f g : Fld) (v : Nat) (ho : g.off = f.off) (hg : g.lo + g.w ≤ 32)
    (h : g.lo + g.w ≤ f.lo ∨ f.lo + f.w ≤ g.lo) : (s.fset f v).fget g = s.fget g := by
  simp only [State.fget, State.fset, ho, State.rd_wr_same, BitVec.toNat_ofNat]
  rw [bitsOf_mod _ _ _ hg]
  rcases h with h | h
  · exact bitsOf_setBits_below _ _ _ _ _ _ h
  · exact bitsOf_setBits_above _ _ _ _ _ _ h

/-- A field of another register. -/
theorem State.fget_fset_off (s : State) (f g : Fld) (v : Nat) (h : g.off ≠ f.off) : (s.fset f v).fget g = s.fget g := by
  simp only [State.fget, s.rd_fset_other f v h]

theorem State.fget_wr_off (s : State) (o : Nat) (v : W32) (g : Fld) (h : g.off ≠ o) : (s.wr o v).fget g = s.fget g := by
  simp only [State.fget, s.rd_wr_other v h]

theorem State.fget_lt (s : State) (f : Fld) : s.fget f < 2 ^ f.w := bitsOf_lt _ _ _

theorem State.fbit_eq (s : State) (f : Fld) : s.fbit f = true ↔ s.fget f ≠ 0 := by simp [State.fbit]

/-- An event counter goes up by n, and saturates (R454). -/
theorem State.rd_bumpBy_same (s : State) (o n : Nat) :
    ((s.bumpBy o n).rd o).toNat = min 0xFFFFFFFF ((s.rd o).toNat + n) := by
  simp only [State.bumpBy, State.rd_wr_same, BitVec.toNat_ofNat]
  exact Nat.mod_eq_of_lt (by omega)

theorem State.rd_bumpBy_other (s : State) {o p : Nat} (n : Nat) (h : p ≠ o) : (s.bumpBy o n).rd p = s.rd p :=
  s.rd_wr_other _ h

/-- Cleared registers read 0. -/
theorem State.rd_clear_mem (s : State) (l : List Nat) {o : Nat} (h : o ∈ l) : (s.clear l).rd o = 0 := by
  suffices H : ∀ (l : List Nat) (s : State), (o ∈ l ∨ s.rd o = 0) → (s.clear l).rd o = 0 from H l s (.inl h)
  intro l
  induction l with
  | nil => intro s h; simpa [State.clear] using h
  | cons a r ih =>
    intro s h
    simp only [State.clear, List.foldl_cons]
    apply ih
    rcases h with h | h
    · rcases List.mem_cons.1 h with rfl | h
      · exact .inr (by simp)
      · exact .inl h
    · exact .inr (by rw [State.rd_wr]; split <;> simp [h])

/-- Clearing leaves every other register. -/
theorem State.rd_clear_other (s : State) (l : List Nat) {o : Nat} (h : o ∉ l) : (s.clear l).rd o = s.rd o := by
  induction l generalizing s with
  | nil => rfl
  | cons a r ih =>
    simp only [List.mem_cons, not_or] at h
    simp only [State.clear, List.foldl_cons]
    exact (ih (s.wr a 0) h.2).trans (s.rd_wr_other 0 h.1)

/-- Clearing touches the register file alone. -/
theorem State.clear_regs (s : State) (l : List Nat) : { s.clear l with regs := s.regs } = s := by
  induction l generalizing s with
  | nil => rfl
  | cons a r ih =>
    simp only [State.clear, List.foldl_cons]
    have := ih (s.wr a 0)
    simp only [State.clear] at this
    calc _ = { ({ List.foldl (fun s o => s.wr o 0) (s.wr a 0) r with regs := (s.wr a 0).regs } : State) with
          regs := s.regs } := rfl
      _ = { s.wr a 0 with regs := s.regs } := by rw [this]
      _ = s := rfl

end Sys2Proof.Machine
end

