-- ==== Sys2Proof/Laws/State.lean ====
section
/-! SUPPORT. Sys2Proof/Laws/State.lean: for each named update of the state, what every field that it does not change holds
after it. -/

namespace Sys2Proof.Machine.State

variable (s : State) (a b c i o ac ad m : Nat) (f : Fld) (v : W32) (w64 : W64) (k : CoreS) (h : CoreCtx) (x : Ctx)
  (q : List QEntry) (w : List W64) (ct : Ctr) (p : Port) (ch : Chan) (j : Option Job) (e : Output) (cl : Cls) (y : Party)
  (z : Bool) (bs : List Byte)

@[simp] theorem wr_pending : (s.wr o v).pending = s.pending := by unfold wr; rfl
@[simp] theorem wr_shadow : (s.wr o v).shadow = s.shadow := by unfold wr; rfl
@[simp] theorem wr_mem : (s.wr o v).mem = s.mem := by unfold wr; rfl
@[simp] theorem wr_poison : (s.wr o v).poison = s.poison := by unfold wr; rfl
@[simp] theorem wr_cache : (s.wr o v).cache = s.cache := by unfold wr; rfl
@[simp] theorem wr_fills : (s.wr o v).fills = s.fills := by unfold wr; rfl
@[simp] theorem wr_rewrites : (s.wr o v).rewrites = s.rewrites := by unfold wr; rfl
@[simp] theorem wr_wide : (s.wr o v).wide = s.wide := by unfold wr; rfl
@[simp] theorem wr_mboxes : (s.wr o v).mboxes = s.mboxes := by unfold wr; rfl
@[simp] theorem wr_epSet : (s.wr o v).epSet = s.epSet := by unfold wr; rfl
@[simp] theorem wr_perst : (s.wr o v).perst = s.perst := by unfold wr; rfl
@[simp] theorem wr_withy : (s.wr o v).withy = s.withy := by unfold wr; rfl
@[simp] theorem wr_withyErrs : (s.wr o v).withyErrs = s.withyErrs := by unfold wr; rfl
@[simp] theorem wr_stopTurn : (s.wr o v).stopTurn = s.stopTurn := by unfold wr; rfl
@[simp] theorem wr_chans : (s.wr o v).chans = s.chans := by unfold wr; rfl
@[simp] theorem wr_msixTab : (s.wr o v).msixTab = s.msixTab := by unfold wr; rfl
@[simp] theorem wr_msixPend : (s.wr o v).msixPend = s.msixPend := by unfold wr; rfl
@[simp] theorem wr_msixOn : (s.wr o v).msixOn = s.msixOn := by unfold wr; rfl
@[simp] theorem wr_msixMask : (s.wr o v).msixMask = s.msixMask := by unfold wr; rfl
@[simp] theorem wr_cfgRegs : (s.wr o v).cfgRegs = s.cfgRegs := by unfold wr; rfl
@[simp] theorem wr_arbs : (s.wr o v).arbs = s.arbs := by unfold wr; rfl
@[simp] theorem wr_loader : (s.wr o v).loader = s.loader := by unfold wr; rfl
@[simp] theorem wr_unloads : (s.wr o v).unloads = s.unloads := by unfold wr; rfl
@[simp] theorem wr_routes : (s.wr o v).routes = s.routes := by unfold wr; rfl
@[simp] theorem wr_mcast : (s.wr o v).mcast = s.mcast := by unfold wr; rfl
@[simp] theorem wr_groups : (s.wr o v).groups = s.groups := by unfold wr; rfl
@[simp] theorem wr_ports : (s.wr o v).ports = s.ports := by unfold wr; rfl
@[simp] theorem wr_remotes : (s.wr o v).remotes = s.remotes := by unfold wr; rfl
@[simp] theorem wr_nextReq : (s.wr o v).nextReq = s.nextReq := by unfold wr; rfl
@[simp] theorem wr_epochHold : (s.wr o v).epochHold = s.epochHold := by unfold wr; rfl
@[simp] theorem wr_held : (s.wr o v).held = s.held := by unfold wr; rfl
@[simp] theorem wr_msgParts : (s.wr o v).msgParts = s.msgParts := by unfold wr; rfl
@[simp] theorem wr_advancedAt : (s.wr o v).advancedAt = s.advancedAt := by unfold wr; rfl
@[simp] theorem wr_adders : (s.wr o v).adders = s.adders := by unfold wr; rfl
@[simp] theorem wr_redWait : (s.wr o v).redWait = s.redWait := by unfold wr; rfl
@[simp] theorem wr_insts : (s.wr o v).insts = s.insts := by unfold wr; rfl
@[simp] theorem wr_returns : (s.wr o v).returns = s.returns := by unfold wr; rfl
@[simp] theorem wr_returned : (s.wr o v).returned = s.returned := by unfold wr; rfl
@[simp] theorem wr_sends : (s.wr o v).sends = s.sends := by unfold wr; rfl
@[simp] theorem wr_sendPend : (s.wr o v).sendPend = s.sendPend := by unfold wr; rfl
@[simp] theorem wr_rets : (s.wr o v).rets = s.rets := by unfold wr; rfl
@[simp] theorem wr_bindings : (s.wr o v).bindings = s.bindings := by unfold wr; rfl
@[simp] theorem wr_retEnts : (s.wr o v).retEnts = s.retEnts := by unfold wr; rfl
@[simp] theorem wr_step : (s.wr o v).step = s.step := by unfold wr; rfl
@[simp] theorem wr_lsLatch : (s.wr o v).lsLatch = s.lsLatch := by unfold wr; rfl
@[simp] theorem wr_led : (s.wr o v).led = s.led := by unfold wr; rfl
@[simp] theorem wr_pw : (s.wr o v).pw = s.pw := by unfold wr; rfl
@[simp] theorem wr_sec : (s.wr o v).sec = s.sec := by unfold wr; rfl
@[simp] theorem wr_clk : (s.wr o v).clk = s.clk := by unfold wr; rfl
@[simp] theorem wr_round : (s.wr o v).round = s.round := by unfold wr; rfl
@[simp] theorem wr_jobD : (s.wr o v).jobD = s.jobD := by unfold wr; rfl
@[simp] theorem wr_jobT : (s.wr o v).jobT = s.jobT := by unfold wr; rfl
@[simp] theorem wr_ctrs : (s.wr o v).ctrs = s.ctrs := by unfold wr; rfl
@[simp] theorem wr_cores : (s.wr o v).cores = s.cores := by unfold wr; rfl
@[simp] theorem wr_fb : (s.wr o v).fb = s.fb := by unfold wr; rfl
@[simp] theorem wr_cycles : (s.wr o v).cycles = s.cycles := by unfold wr; rfl
@[simp] theorem wr_reports : (s.wr o v).reports = s.reports := by unfold wr; rfl
@[simp] theorem wr_captures : (s.wr o v).captures = s.captures := by unfold wr; rfl
@[simp] theorem wr_fenceCores : (s.wr o v).fenceCores = s.fenceCores := by unfold wr; rfl
@[simp] theorem wr_fenceChans : (s.wr o v).fenceChans = s.fenceChans := by unfold wr; rfl
@[simp] theorem wr_fencePorts : (s.wr o v).fencePorts = s.fencePorts := by unfold wr; rfl
@[simp] theorem wr_injAddr : (s.wr o v).injAddr = s.injAddr := by unfold wr; rfl
@[simp] theorem wr_injPoint : (s.wr o v).injPoint = s.injPoint := by unfold wr; rfl
@[simp] theorem wr_out : (s.wr o v).out = s.out := by unfold wr; rfl
@[simp] theorem wr_reply : (s.wr o v).reply = s.reply := by unfold wr; rfl
@[simp] theorem wr_freeIdx : (s.wr o v).freeIdx = s.freeIdx := by unfold wr; rfl

@[simp] theorem fset_pending : (s.fset f a).pending = s.pending := by unfold fset wr; rfl
@[simp] theorem fset_shadow : (s.fset f a).shadow = s.shadow := by unfold fset wr; rfl
@[simp] theorem fset_mem : (s.fset f a).mem = s.mem := by unfold fset wr; rfl
@[simp] theorem fset_poison : (s.fset f a).poison = s.poison := by unfold fset wr; rfl
@[simp] theorem fset_cache : (s.fset f a).cache = s.cache := by unfold fset wr; rfl
@[simp] theorem fset_fills : (s.fset f a).fills = s.fills := by unfold fset wr; rfl
@[simp] theorem fset_rewrites : (s.fset f a).rewrites = s.rewrites := by unfold fset wr; rfl
@[simp] theorem fset_wide : (s.fset f a).wide = s.wide := by unfold fset wr; rfl
@[simp] theorem fset_mboxes : (s.fset f a).mboxes = s.mboxes := by unfold fset wr; rfl
@[simp] theorem fset_epSet : (s.fset f a).epSet = s.epSet := by unfold fset wr; rfl
@[simp] theorem fset_perst : (s.fset f a).perst = s.perst := by unfold fset wr; rfl
@[simp] theorem fset_withy : (s.fset f a).withy = s.withy := by unfold fset wr; rfl
@[simp] theorem fset_withyErrs : (s.fset f a).withyErrs = s.withyErrs := by unfold fset wr; rfl
@[simp] theorem fset_stopTurn : (s.fset f a).stopTurn = s.stopTurn := by unfold fset wr; rfl
@[simp] theorem fset_chans : (s.fset f a).chans = s.chans := by unfold fset wr; rfl
@[simp] theorem fset_msixTab : (s.fset f a).msixTab = s.msixTab := by unfold fset wr; rfl
@[simp] theorem fset_msixPend : (s.fset f a).msixPend = s.msixPend := by unfold fset wr; rfl
@[simp] theorem fset_msixOn : (s.fset f a).msixOn = s.msixOn := by unfold fset wr; rfl
@[simp] theorem fset_msixMask : (s.fset f a).msixMask = s.msixMask := by unfold fset wr; rfl
@[simp] theorem fset_cfgRegs : (s.fset f a).cfgRegs = s.cfgRegs := by unfold fset wr; rfl
@[simp] theorem fset_arbs : (s.fset f a).arbs = s.arbs := by unfold fset wr; rfl
@[simp] theorem fset_loader : (s.fset f a).loader = s.loader := by unfold fset wr; rfl
@[simp] theorem fset_unloads : (s.fset f a).unloads = s.unloads := by unfold fset wr; rfl
@[simp] theorem fset_routes : (s.fset f a).routes = s.routes := by unfold fset wr; rfl
@[simp] theorem fset_mcast : (s.fset f a).mcast = s.mcast := by unfold fset wr; rfl
@[simp] theorem fset_groups : (s.fset f a).groups = s.groups := by unfold fset wr; rfl
@[simp] theorem fset_ports : (s.fset f a).ports = s.ports := by unfold fset wr; rfl
@[simp] theorem fset_remotes : (s.fset f a).remotes = s.remotes := by unfold fset wr; rfl
@[simp] theorem fset_nextReq : (s.fset f a).nextReq = s.nextReq := by unfold fset wr; rfl
@[simp] theorem fset_epochHold : (s.fset f a).epochHold = s.epochHold := by unfold fset wr; rfl
@[simp] theorem fset_held : (s.fset f a).held = s.held := by unfold fset wr; rfl
@[simp] theorem fset_msgParts : (s.fset f a).msgParts = s.msgParts := by unfold fset wr; rfl
@[simp] theorem fset_advancedAt : (s.fset f a).advancedAt = s.advancedAt := by unfold fset wr; rfl
@[simp] theorem fset_adders : (s.fset f a).adders = s.adders := by unfold fset wr; rfl
@[simp] theorem fset_redWait : (s.fset f a).redWait = s.redWait := by unfold fset wr; rfl
@[simp] theorem fset_insts : (s.fset f a).insts = s.insts := by unfold fset wr; rfl
@[simp] theorem fset_returns : (s.fset f a).returns = s.returns := by unfold fset wr; rfl
@[simp] theorem fset_returned : (s.fset f a).returned = s.returned := by unfold fset wr; rfl
@[simp] theorem fset_sends : (s.fset f a).sends = s.sends := by unfold fset wr; rfl
@[simp] theorem fset_sendPend : (s.fset f a).sendPend = s.sendPend := by unfold fset wr; rfl
@[simp] theorem fset_rets : (s.fset f a).rets = s.rets := by unfold fset wr; rfl
@[simp] theorem fset_bindings : (s.fset f a).bindings = s.bindings := by unfold fset wr; rfl
@[simp] theorem fset_retEnts : (s.fset f a).retEnts = s.retEnts := by unfold fset wr; rfl
@[simp] theorem fset_step : (s.fset f a).step = s.step := by unfold fset wr; rfl
@[simp] theorem fset_lsLatch : (s.fset f a).lsLatch = s.lsLatch := by unfold fset wr; rfl
@[simp] theorem fset_led : (s.fset f a).led = s.led := by unfold fset wr; rfl
@[simp] theorem fset_pw : (s.fset f a).pw = s.pw := by unfold fset wr; rfl
@[simp] theorem fset_sec : (s.fset f a).sec = s.sec := by unfold fset wr; rfl
@[simp] theorem fset_clk : (s.fset f a).clk = s.clk := by unfold fset wr; rfl
@[simp] theorem fset_round : (s.fset f a).round = s.round := by unfold fset wr; rfl
@[simp] theorem fset_jobD : (s.fset f a).jobD = s.jobD := by unfold fset wr; rfl
@[simp] theorem fset_jobT : (s.fset f a).jobT = s.jobT := by unfold fset wr; rfl
@[simp] theorem fset_ctrs : (s.fset f a).ctrs = s.ctrs := by unfold fset wr; rfl
@[simp] theorem fset_cores : (s.fset f a).cores = s.cores := by unfold fset wr; rfl
@[simp] theorem fset_fb : (s.fset f a).fb = s.fb := by unfold fset wr; rfl
@[simp] theorem fset_cycles : (s.fset f a).cycles = s.cycles := by unfold fset wr; rfl
@[simp] theorem fset_reports : (s.fset f a).reports = s.reports := by unfold fset wr; rfl
@[simp] theorem fset_captures : (s.fset f a).captures = s.captures := by unfold fset wr; rfl
@[simp] theorem fset_fenceCores : (s.fset f a).fenceCores = s.fenceCores := by unfold fset wr; rfl
@[simp] theorem fset_fenceChans : (s.fset f a).fenceChans = s.fenceChans := by unfold fset wr; rfl
@[simp] theorem fset_fencePorts : (s.fset f a).fencePorts = s.fencePorts := by unfold fset wr; rfl
@[simp] theorem fset_injAddr : (s.fset f a).injAddr = s.injAddr := by unfold fset wr; rfl
@[simp] theorem fset_injPoint : (s.fset f a).injPoint = s.injPoint := by unfold fset wr; rfl
@[simp] theorem fset_out : (s.fset f a).out = s.out := by unfold fset wr; rfl
@[simp] theorem fset_reply : (s.fset f a).reply = s.reply := by unfold fset wr; rfl
@[simp] theorem fset_freeIdx : (s.fset f a).freeIdx = s.freeIdx := by unfold fset wr; rfl

@[simp] theorem bumpBy_pending : (s.bumpBy o a).pending = s.pending := by unfold bumpBy wr; rfl
@[simp] theorem bumpBy_shadow : (s.bumpBy o a).shadow = s.shadow := by unfold bumpBy wr; rfl
@[simp] theorem bumpBy_mem : (s.bumpBy o a).mem = s.mem := by unfold bumpBy wr; rfl
@[simp] theorem bumpBy_poison : (s.bumpBy o a).poison = s.poison := by unfold bumpBy wr; rfl
@[simp] theorem bumpBy_cache : (s.bumpBy o a).cache = s.cache := by unfold bumpBy wr; rfl
@[simp] theorem bumpBy_fills : (s.bumpBy o a).fills = s.fills := by unfold bumpBy wr; rfl
@[simp] theorem bumpBy_rewrites : (s.bumpBy o a).rewrites = s.rewrites := by unfold bumpBy wr; rfl
@[simp] theorem bumpBy_wide : (s.bumpBy o a).wide = s.wide := by unfold bumpBy wr; rfl
@[simp] theorem bumpBy_mboxes : (s.bumpBy o a).mboxes = s.mboxes := by unfold bumpBy wr; rfl
@[simp] theorem bumpBy_epSet : (s.bumpBy o a).epSet = s.epSet := by unfold bumpBy wr; rfl
@[simp] theorem bumpBy_perst : (s.bumpBy o a).perst = s.perst := by unfold bumpBy wr; rfl
@[simp] theorem bumpBy_withy : (s.bumpBy o a).withy = s.withy := by unfold bumpBy wr; rfl
@[simp] theorem bumpBy_withyErrs : (s.bumpBy o a).withyErrs = s.withyErrs := by unfold bumpBy wr; rfl
@[simp] theorem bumpBy_stopTurn : (s.bumpBy o a).stopTurn = s.stopTurn := by unfold bumpBy wr; rfl
@[simp] theorem bumpBy_chans : (s.bumpBy o a).chans = s.chans := by unfold bumpBy wr; rfl
@[simp] theorem bumpBy_msixTab : (s.bumpBy o a).msixTab = s.msixTab := by unfold bumpBy wr; rfl
@[simp] theorem bumpBy_msixPend : (s.bumpBy o a).msixPend = s.msixPend := by unfold bumpBy wr; rfl
@[simp] theorem bumpBy_msixOn : (s.bumpBy o a).msixOn = s.msixOn := by unfold bumpBy wr; rfl
@[simp] theorem bumpBy_msixMask : (s.bumpBy o a).msixMask = s.msixMask := by unfold bumpBy wr; rfl
@[simp] theorem bumpBy_cfgRegs : (s.bumpBy o a).cfgRegs = s.cfgRegs := by unfold bumpBy wr; rfl
@[simp] theorem bumpBy_arbs : (s.bumpBy o a).arbs = s.arbs := by unfold bumpBy wr; rfl
@[simp] theorem bumpBy_loader : (s.bumpBy o a).loader = s.loader := by unfold bumpBy wr; rfl
@[simp] theorem bumpBy_unloads : (s.bumpBy o a).unloads = s.unloads := by unfold bumpBy wr; rfl
@[simp] theorem bumpBy_routes : (s.bumpBy o a).routes = s.routes := by unfold bumpBy wr; rfl
@[simp] theorem bumpBy_mcast : (s.bumpBy o a).mcast = s.mcast := by unfold bumpBy wr; rfl
@[simp] theorem bumpBy_groups : (s.bumpBy o a).groups = s.groups := by unfold bumpBy wr; rfl
@[simp] theorem bumpBy_ports : (s.bumpBy o a).ports = s.ports := by unfold bumpBy wr; rfl
@[simp] theorem bumpBy_remotes : (s.bumpBy o a).remotes = s.remotes := by unfold bumpBy wr; rfl
@[simp] theorem bumpBy_nextReq : (s.bumpBy o a).nextReq = s.nextReq := by unfold bumpBy wr; rfl
@[simp] theorem bumpBy_epochHold : (s.bumpBy o a).epochHold = s.epochHold := by unfold bumpBy wr; rfl
@[simp] theorem bumpBy_held : (s.bumpBy o a).held = s.held := by unfold bumpBy wr; rfl
@[simp] theorem bumpBy_msgParts : (s.bumpBy o a).msgParts = s.msgParts := by unfold bumpBy wr; rfl
@[simp] theorem bumpBy_advancedAt : (s.bumpBy o a).advancedAt = s.advancedAt := by unfold bumpBy wr; rfl
@[simp] theorem bumpBy_adders : (s.bumpBy o a).adders = s.adders := by unfold bumpBy wr; rfl
@[simp] theorem bumpBy_redWait : (s.bumpBy o a).redWait = s.redWait := by unfold bumpBy wr; rfl
@[simp] theorem bumpBy_insts : (s.bumpBy o a).insts = s.insts := by unfold bumpBy wr; rfl
@[simp] theorem bumpBy_returns : (s.bumpBy o a).returns = s.returns := by unfold bumpBy wr; rfl
@[simp] theorem bumpBy_returned : (s.bumpBy o a).returned = s.returned := by unfold bumpBy wr; rfl
@[simp] theorem bumpBy_sends : (s.bumpBy o a).sends = s.sends := by unfold bumpBy wr; rfl
@[simp] theorem bumpBy_sendPend : (s.bumpBy o a).sendPend = s.sendPend := by unfold bumpBy wr; rfl
@[simp] theorem bumpBy_rets : (s.bumpBy o a).rets = s.rets := by unfold bumpBy wr; rfl
@[simp] theorem bumpBy_bindings : (s.bumpBy o a).bindings = s.bindings := by unfold bumpBy wr; rfl
@[simp] theorem bumpBy_retEnts : (s.bumpBy o a).retEnts = s.retEnts := by unfold bumpBy wr; rfl
@[simp] theorem bumpBy_step : (s.bumpBy o a).step = s.step := by unfold bumpBy wr; rfl
@[simp] theorem bumpBy_lsLatch : (s.bumpBy o a).lsLatch = s.lsLatch := by unfold bumpBy wr; rfl
@[simp] theorem bumpBy_led : (s.bumpBy o a).led = s.led := by unfold bumpBy wr; rfl
@[simp] theorem bumpBy_pw : (s.bumpBy o a).pw = s.pw := by unfold bumpBy wr; rfl
@[simp] theorem bumpBy_sec : (s.bumpBy o a).sec = s.sec := by unfold bumpBy wr; rfl
@[simp] theorem bumpBy_clk : (s.bumpBy o a).clk = s.clk := by unfold bumpBy wr; rfl
@[simp] theorem bumpBy_round : (s.bumpBy o a).round = s.round := by unfold bumpBy wr; rfl
@[simp] theorem bumpBy_jobD : (s.bumpBy o a).jobD = s.jobD := by unfold bumpBy wr; rfl
@[simp] theorem bumpBy_jobT : (s.bumpBy o a).jobT = s.jobT := by unfold bumpBy wr; rfl
@[simp] theorem bumpBy_ctrs : (s.bumpBy o a).ctrs = s.ctrs := by unfold bumpBy wr; rfl
@[simp] theorem bumpBy_cores : (s.bumpBy o a).cores = s.cores := by unfold bumpBy wr; rfl
@[simp] theorem bumpBy_fb : (s.bumpBy o a).fb = s.fb := by unfold bumpBy wr; rfl
@[simp] theorem bumpBy_cycles : (s.bumpBy o a).cycles = s.cycles := by unfold bumpBy wr; rfl
@[simp] theorem bumpBy_reports : (s.bumpBy o a).reports = s.reports := by unfold bumpBy wr; rfl
@[simp] theorem bumpBy_captures : (s.bumpBy o a).captures = s.captures := by unfold bumpBy wr; rfl
@[simp] theorem bumpBy_fenceCores : (s.bumpBy o a).fenceCores = s.fenceCores := by unfold bumpBy wr; rfl
@[simp] theorem bumpBy_fenceChans : (s.bumpBy o a).fenceChans = s.fenceChans := by unfold bumpBy wr; rfl
@[simp] theorem bumpBy_fencePorts : (s.bumpBy o a).fencePorts = s.fencePorts := by unfold bumpBy wr; rfl
@[simp] theorem bumpBy_injAddr : (s.bumpBy o a).injAddr = s.injAddr := by unfold bumpBy wr; rfl
@[simp] theorem bumpBy_injPoint : (s.bumpBy o a).injPoint = s.injPoint := by unfold bumpBy wr; rfl
@[simp] theorem bumpBy_out : (s.bumpBy o a).out = s.out := by unfold bumpBy wr; rfl
@[simp] theorem bumpBy_reply : (s.bumpBy o a).reply = s.reply := by unfold bumpBy wr; rfl
@[simp] theorem bumpBy_freeIdx : (s.bumpBy o a).freeIdx = s.freeIdx := by unfold bumpBy wr; rfl

@[simp] theorem fired_pending : (s.fired a).pending = s.pending := by unfold fired fset wr; rfl
@[simp] theorem fired_shadow : (s.fired a).shadow = s.shadow := by unfold fired fset wr; rfl
@[simp] theorem fired_mem : (s.fired a).mem = s.mem := by unfold fired fset wr; rfl
@[simp] theorem fired_poison : (s.fired a).poison = s.poison := by unfold fired fset wr; rfl
@[simp] theorem fired_cache : (s.fired a).cache = s.cache := by unfold fired fset wr; rfl
@[simp] theorem fired_fills : (s.fired a).fills = s.fills := by unfold fired fset wr; rfl
@[simp] theorem fired_rewrites : (s.fired a).rewrites = s.rewrites := by unfold fired fset wr; rfl
@[simp] theorem fired_wide : (s.fired a).wide = s.wide := by unfold fired fset wr; rfl
@[simp] theorem fired_mboxes : (s.fired a).mboxes = s.mboxes := by unfold fired fset wr; rfl
@[simp] theorem fired_epSet : (s.fired a).epSet = s.epSet := by unfold fired fset wr; rfl
@[simp] theorem fired_perst : (s.fired a).perst = s.perst := by unfold fired fset wr; rfl
@[simp] theorem fired_withy : (s.fired a).withy = s.withy := by unfold fired fset wr; rfl
@[simp] theorem fired_withyErrs : (s.fired a).withyErrs = s.withyErrs := by unfold fired fset wr; rfl
@[simp] theorem fired_stopTurn : (s.fired a).stopTurn = s.stopTurn := by unfold fired fset wr; rfl
@[simp] theorem fired_chans : (s.fired a).chans = s.chans := by unfold fired fset wr; rfl
@[simp] theorem fired_msixTab : (s.fired a).msixTab = s.msixTab := by unfold fired fset wr; rfl
@[simp] theorem fired_msixPend : (s.fired a).msixPend = s.msixPend := by unfold fired fset wr; rfl
@[simp] theorem fired_msixOn : (s.fired a).msixOn = s.msixOn := by unfold fired fset wr; rfl
@[simp] theorem fired_msixMask : (s.fired a).msixMask = s.msixMask := by unfold fired fset wr; rfl
@[simp] theorem fired_cfgRegs : (s.fired a).cfgRegs = s.cfgRegs := by unfold fired fset wr; rfl
@[simp] theorem fired_arbs : (s.fired a).arbs = s.arbs := by unfold fired fset wr; rfl
@[simp] theorem fired_loader : (s.fired a).loader = s.loader := by unfold fired fset wr; rfl
@[simp] theorem fired_unloads : (s.fired a).unloads = s.unloads := by unfold fired fset wr; rfl
@[simp] theorem fired_routes : (s.fired a).routes = s.routes := by unfold fired fset wr; rfl
@[simp] theorem fired_mcast : (s.fired a).mcast = s.mcast := by unfold fired fset wr; rfl
@[simp] theorem fired_groups : (s.fired a).groups = s.groups := by unfold fired fset wr; rfl
@[simp] theorem fired_ports : (s.fired a).ports = s.ports := by unfold fired fset wr; rfl
@[simp] theorem fired_remotes : (s.fired a).remotes = s.remotes := by unfold fired fset wr; rfl
@[simp] theorem fired_nextReq : (s.fired a).nextReq = s.nextReq := by unfold fired fset wr; rfl
@[simp] theorem fired_epochHold : (s.fired a).epochHold = s.epochHold := by unfold fired fset wr; rfl
@[simp] theorem fired_held : (s.fired a).held = s.held := by unfold fired fset wr; rfl
@[simp] theorem fired_msgParts : (s.fired a).msgParts = s.msgParts := by unfold fired fset wr; rfl
@[simp] theorem fired_advancedAt : (s.fired a).advancedAt = s.advancedAt := by unfold fired fset wr; rfl
@[simp] theorem fired_adders : (s.fired a).adders = s.adders := by unfold fired fset wr; rfl
@[simp] theorem fired_redWait : (s.fired a).redWait = s.redWait := by unfold fired fset wr; rfl
@[simp] theorem fired_insts : (s.fired a).insts = s.insts := by unfold fired fset wr; rfl
@[simp] theorem fired_returns : (s.fired a).returns = s.returns := by unfold fired fset wr; rfl
@[simp] theorem fired_returned : (s.fired a).returned = s.returned := by unfold fired fset wr; rfl
@[simp] theorem fired_sends : (s.fired a).sends = s.sends := by unfold fired fset wr; rfl
@[simp] theorem fired_sendPend : (s.fired a).sendPend = s.sendPend := by unfold fired fset wr; rfl
@[simp] theorem fired_rets : (s.fired a).rets = s.rets := by unfold fired fset wr; rfl
@[simp] theorem fired_bindings : (s.fired a).bindings = s.bindings := by unfold fired fset wr; rfl
@[simp] theorem fired_retEnts : (s.fired a).retEnts = s.retEnts := by unfold fired fset wr; rfl
@[simp] theorem fired_step : (s.fired a).step = s.step := by unfold fired fset wr; rfl
@[simp] theorem fired_lsLatch : (s.fired a).lsLatch = s.lsLatch := by unfold fired fset wr; rfl
@[simp] theorem fired_led : (s.fired a).led = s.led := by unfold fired fset wr; rfl
@[simp] theorem fired_pw : (s.fired a).pw = s.pw := by unfold fired fset wr; rfl
@[simp] theorem fired_sec : (s.fired a).sec = s.sec := by unfold fired fset wr; rfl
@[simp] theorem fired_clk : (s.fired a).clk = s.clk := by unfold fired fset wr; rfl
@[simp] theorem fired_round : (s.fired a).round = s.round := by unfold fired fset wr; rfl
@[simp] theorem fired_jobD : (s.fired a).jobD = s.jobD := by unfold fired fset wr; rfl
@[simp] theorem fired_jobT : (s.fired a).jobT = s.jobT := by unfold fired fset wr; rfl
@[simp] theorem fired_ctrs : (s.fired a).ctrs = s.ctrs := by unfold fired fset wr; rfl
@[simp] theorem fired_cores : (s.fired a).cores = s.cores := by unfold fired fset wr; rfl
@[simp] theorem fired_fb : (s.fired a).fb = s.fb := by unfold fired fset wr; rfl
@[simp] theorem fired_cycles : (s.fired a).cycles = s.cycles := by unfold fired fset wr; rfl
@[simp] theorem fired_reports : (s.fired a).reports = s.reports := by unfold fired fset wr; rfl
@[simp] theorem fired_captures : (s.fired a).captures = s.captures := by unfold fired fset wr; rfl
@[simp] theorem fired_fenceCores : (s.fired a).fenceCores = s.fenceCores := by unfold fired fset wr; rfl
@[simp] theorem fired_fenceChans : (s.fired a).fenceChans = s.fenceChans := by unfold fired fset wr; rfl
@[simp] theorem fired_fencePorts : (s.fired a).fencePorts = s.fencePorts := by unfold fired fset wr; rfl
@[simp] theorem fired_injAddr : (s.fired a).injAddr = s.injAddr := by unfold fired fset wr; rfl
@[simp] theorem fired_injPoint : (s.fired a).injPoint = s.injPoint := by unfold fired fset wr; rfl
@[simp] theorem fired_out : (s.fired a).out = s.out := by unfold fired fset wr; rfl
@[simp] theorem fired_reply : (s.fired a).reply = s.reply := by unfold fired fset wr; rfl
@[simp] theorem fired_freeIdx : (s.fired a).freeIdx = s.freeIdx := by unfold fired fset wr; rfl

@[simp] theorem setCore_pending : (s.setCore c k).pending = s.pending := by unfold setCore; rfl
@[simp] theorem setCore_regs : (s.setCore c k).regs = s.regs := by unfold setCore; rfl
@[simp] theorem setCore_shadow : (s.setCore c k).shadow = s.shadow := by unfold setCore; rfl
@[simp] theorem setCore_mem : (s.setCore c k).mem = s.mem := by unfold setCore; rfl
@[simp] theorem setCore_poison : (s.setCore c k).poison = s.poison := by unfold setCore; rfl
@[simp] theorem setCore_cache : (s.setCore c k).cache = s.cache := by unfold setCore; rfl
@[simp] theorem setCore_fills : (s.setCore c k).fills = s.fills := by unfold setCore; rfl
@[simp] theorem setCore_rewrites : (s.setCore c k).rewrites = s.rewrites := by unfold setCore; rfl
@[simp] theorem setCore_wide : (s.setCore c k).wide = s.wide := by unfold setCore; rfl
@[simp] theorem setCore_mboxes : (s.setCore c k).mboxes = s.mboxes := by unfold setCore; rfl
@[simp] theorem setCore_epSet : (s.setCore c k).epSet = s.epSet := by unfold setCore; rfl
@[simp] theorem setCore_perst : (s.setCore c k).perst = s.perst := by unfold setCore; rfl
@[simp] theorem setCore_withy : (s.setCore c k).withy = s.withy := by unfold setCore; rfl
@[simp] theorem setCore_withyErrs : (s.setCore c k).withyErrs = s.withyErrs := by unfold setCore; rfl
@[simp] theorem setCore_stopTurn : (s.setCore c k).stopTurn = s.stopTurn := by unfold setCore; rfl
@[simp] theorem setCore_chans : (s.setCore c k).chans = s.chans := by unfold setCore; rfl
@[simp] theorem setCore_msixTab : (s.setCore c k).msixTab = s.msixTab := by unfold setCore; rfl
@[simp] theorem setCore_msixPend : (s.setCore c k).msixPend = s.msixPend := by unfold setCore; rfl
@[simp] theorem setCore_msixOn : (s.setCore c k).msixOn = s.msixOn := by unfold setCore; rfl
@[simp] theorem setCore_msixMask : (s.setCore c k).msixMask = s.msixMask := by unfold setCore; rfl
@[simp] theorem setCore_cfgRegs : (s.setCore c k).cfgRegs = s.cfgRegs := by unfold setCore; rfl
@[simp] theorem setCore_arbs : (s.setCore c k).arbs = s.arbs := by unfold setCore; rfl
@[simp] theorem setCore_loader : (s.setCore c k).loader = s.loader := by unfold setCore; rfl
@[simp] theorem setCore_unloads : (s.setCore c k).unloads = s.unloads := by unfold setCore; rfl
@[simp] theorem setCore_routes : (s.setCore c k).routes = s.routes := by unfold setCore; rfl
@[simp] theorem setCore_mcast : (s.setCore c k).mcast = s.mcast := by unfold setCore; rfl
@[simp] theorem setCore_groups : (s.setCore c k).groups = s.groups := by unfold setCore; rfl
@[simp] theorem setCore_ports : (s.setCore c k).ports = s.ports := by unfold setCore; rfl
@[simp] theorem setCore_remotes : (s.setCore c k).remotes = s.remotes := by unfold setCore; rfl
@[simp] theorem setCore_nextReq : (s.setCore c k).nextReq = s.nextReq := by unfold setCore; rfl
@[simp] theorem setCore_epochHold : (s.setCore c k).epochHold = s.epochHold := by unfold setCore; rfl
@[simp] theorem setCore_held : (s.setCore c k).held = s.held := by unfold setCore; rfl
@[simp] theorem setCore_msgParts : (s.setCore c k).msgParts = s.msgParts := by unfold setCore; rfl
@[simp] theorem setCore_advancedAt : (s.setCore c k).advancedAt = s.advancedAt := by unfold setCore; rfl
@[simp] theorem setCore_adders : (s.setCore c k).adders = s.adders := by unfold setCore; rfl
@[simp] theorem setCore_redWait : (s.setCore c k).redWait = s.redWait := by unfold setCore; rfl
@[simp] theorem setCore_insts : (s.setCore c k).insts = s.insts := by unfold setCore; rfl
@[simp] theorem setCore_returns : (s.setCore c k).returns = s.returns := by unfold setCore; rfl
@[simp] theorem setCore_returned : (s.setCore c k).returned = s.returned := by unfold setCore; rfl
@[simp] theorem setCore_sends : (s.setCore c k).sends = s.sends := by unfold setCore; rfl
@[simp] theorem setCore_sendPend : (s.setCore c k).sendPend = s.sendPend := by unfold setCore; rfl
@[simp] theorem setCore_rets : (s.setCore c k).rets = s.rets := by unfold setCore; rfl
@[simp] theorem setCore_bindings : (s.setCore c k).bindings = s.bindings := by unfold setCore; rfl
@[simp] theorem setCore_retEnts : (s.setCore c k).retEnts = s.retEnts := by unfold setCore; rfl
@[simp] theorem setCore_step : (s.setCore c k).step = s.step := by unfold setCore; rfl
@[simp] theorem setCore_lsLatch : (s.setCore c k).lsLatch = s.lsLatch := by unfold setCore; rfl
@[simp] theorem setCore_led : (s.setCore c k).led = s.led := by unfold setCore; rfl
@[simp] theorem setCore_pw : (s.setCore c k).pw = s.pw := by unfold setCore; rfl
@[simp] theorem setCore_sec : (s.setCore c k).sec = s.sec := by unfold setCore; rfl
@[simp] theorem setCore_clk : (s.setCore c k).clk = s.clk := by unfold setCore; rfl
@[simp] theorem setCore_round : (s.setCore c k).round = s.round := by unfold setCore; rfl
@[simp] theorem setCore_jobD : (s.setCore c k).jobD = s.jobD := by unfold setCore; rfl
@[simp] theorem setCore_jobT : (s.setCore c k).jobT = s.jobT := by unfold setCore; rfl
@[simp] theorem setCore_ctrs : (s.setCore c k).ctrs = s.ctrs := by unfold setCore; rfl
@[simp] theorem setCore_fb : (s.setCore c k).fb = s.fb := by unfold setCore; rfl
@[simp] theorem setCore_cycles : (s.setCore c k).cycles = s.cycles := by unfold setCore; rfl
@[simp] theorem setCore_reports : (s.setCore c k).reports = s.reports := by unfold setCore; rfl
@[simp] theorem setCore_captures : (s.setCore c k).captures = s.captures := by unfold setCore; rfl
@[simp] theorem setCore_fenceCores : (s.setCore c k).fenceCores = s.fenceCores := by unfold setCore; rfl
@[simp] theorem setCore_fenceChans : (s.setCore c k).fenceChans = s.fenceChans := by unfold setCore; rfl
@[simp] theorem setCore_fencePorts : (s.setCore c k).fencePorts = s.fencePorts := by unfold setCore; rfl
@[simp] theorem setCore_injAddr : (s.setCore c k).injAddr = s.injAddr := by unfold setCore; rfl
@[simp] theorem setCore_injPoint : (s.setCore c k).injPoint = s.injPoint := by unfold setCore; rfl
@[simp] theorem setCore_out : (s.setCore c k).out = s.out := by unfold setCore; rfl
@[simp] theorem setCore_reply : (s.setCore c k).reply = s.reply := by unfold setCore; rfl
@[simp] theorem setCore_freeIdx : (s.setCore c k).freeIdx = s.freeIdx := by unfold setCore; rfl

@[simp] theorem setCc_pending : (s.setCc c x h).pending = s.pending := by unfold setCc setCore; rfl
@[simp] theorem setCc_regs : (s.setCc c x h).regs = s.regs := by unfold setCc setCore; rfl
@[simp] theorem setCc_shadow : (s.setCc c x h).shadow = s.shadow := by unfold setCc setCore; rfl
@[simp] theorem setCc_mem : (s.setCc c x h).mem = s.mem := by unfold setCc setCore; rfl
@[simp] theorem setCc_poison : (s.setCc c x h).poison = s.poison := by unfold setCc setCore; rfl
@[simp] theorem setCc_cache : (s.setCc c x h).cache = s.cache := by unfold setCc setCore; rfl
@[simp] theorem setCc_fills : (s.setCc c x h).fills = s.fills := by unfold setCc setCore; rfl
@[simp] theorem setCc_rewrites : (s.setCc c x h).rewrites = s.rewrites := by unfold setCc setCore; rfl
@[simp] theorem setCc_wide : (s.setCc c x h).wide = s.wide := by unfold setCc setCore; rfl
@[simp] theorem setCc_mboxes : (s.setCc c x h).mboxes = s.mboxes := by unfold setCc setCore; rfl
@[simp] theorem setCc_epSet : (s.setCc c x h).epSet = s.epSet := by unfold setCc setCore; rfl
@[simp] theorem setCc_perst : (s.setCc c x h).perst = s.perst := by unfold setCc setCore; rfl
@[simp] theorem setCc_withy : (s.setCc c x h).withy = s.withy := by unfold setCc setCore; rfl
@[simp] theorem setCc_withyErrs : (s.setCc c x h).withyErrs = s.withyErrs := by unfold setCc setCore; rfl
@[simp] theorem setCc_stopTurn : (s.setCc c x h).stopTurn = s.stopTurn := by unfold setCc setCore; rfl
@[simp] theorem setCc_chans : (s.setCc c x h).chans = s.chans := by unfold setCc setCore; rfl
@[simp] theorem setCc_msixTab : (s.setCc c x h).msixTab = s.msixTab := by unfold setCc setCore; rfl
@[simp] theorem setCc_msixPend : (s.setCc c x h).msixPend = s.msixPend := by unfold setCc setCore; rfl
@[simp] theorem setCc_msixOn : (s.setCc c x h).msixOn = s.msixOn := by unfold setCc setCore; rfl
@[simp] theorem setCc_msixMask : (s.setCc c x h).msixMask = s.msixMask := by unfold setCc setCore; rfl
@[simp] theorem setCc_cfgRegs : (s.setCc c x h).cfgRegs = s.cfgRegs := by unfold setCc setCore; rfl
@[simp] theorem setCc_arbs : (s.setCc c x h).arbs = s.arbs := by unfold setCc setCore; rfl
@[simp] theorem setCc_loader : (s.setCc c x h).loader = s.loader := by unfold setCc setCore; rfl
@[simp] theorem setCc_unloads : (s.setCc c x h).unloads = s.unloads := by unfold setCc setCore; rfl
@[simp] theorem setCc_routes : (s.setCc c x h).routes = s.routes := by unfold setCc setCore; rfl
@[simp] theorem setCc_mcast : (s.setCc c x h).mcast = s.mcast := by unfold setCc setCore; rfl
@[simp] theorem setCc_groups : (s.setCc c x h).groups = s.groups := by unfold setCc setCore; rfl
@[simp] theorem setCc_ports : (s.setCc c x h).ports = s.ports := by unfold setCc setCore; rfl
@[simp] theorem setCc_remotes : (s.setCc c x h).remotes = s.remotes := by unfold setCc setCore; rfl
@[simp] theorem setCc_nextReq : (s.setCc c x h).nextReq = s.nextReq := by unfold setCc setCore; rfl
@[simp] theorem setCc_epochHold : (s.setCc c x h).epochHold = s.epochHold := by unfold setCc setCore; rfl
@[simp] theorem setCc_held : (s.setCc c x h).held = s.held := by unfold setCc setCore; rfl
@[simp] theorem setCc_msgParts : (s.setCc c x h).msgParts = s.msgParts := by unfold setCc setCore; rfl
@[simp] theorem setCc_advancedAt : (s.setCc c x h).advancedAt = s.advancedAt := by unfold setCc setCore; rfl
@[simp] theorem setCc_adders : (s.setCc c x h).adders = s.adders := by unfold setCc setCore; rfl
@[simp] theorem setCc_redWait : (s.setCc c x h).redWait = s.redWait := by unfold setCc setCore; rfl
@[simp] theorem setCc_insts : (s.setCc c x h).insts = s.insts := by unfold setCc setCore; rfl
@[simp] theorem setCc_returns : (s.setCc c x h).returns = s.returns := by unfold setCc setCore; rfl
@[simp] theorem setCc_returned : (s.setCc c x h).returned = s.returned := by unfold setCc setCore; rfl
@[simp] theorem setCc_sends : (s.setCc c x h).sends = s.sends := by unfold setCc setCore; rfl
@[simp] theorem setCc_sendPend : (s.setCc c x h).sendPend = s.sendPend := by unfold setCc setCore; rfl
@[simp] theorem setCc_rets : (s.setCc c x h).rets = s.rets := by unfold setCc setCore; rfl
@[simp] theorem setCc_bindings : (s.setCc c x h).bindings = s.bindings := by unfold setCc setCore; rfl
@[simp] theorem setCc_retEnts : (s.setCc c x h).retEnts = s.retEnts := by unfold setCc setCore; rfl
@[simp] theorem setCc_step : (s.setCc c x h).step = s.step := by unfold setCc setCore; rfl
@[simp] theorem setCc_lsLatch : (s.setCc c x h).lsLatch = s.lsLatch := by unfold setCc setCore; rfl
@[simp] theorem setCc_led : (s.setCc c x h).led = s.led := by unfold setCc setCore; rfl
@[simp] theorem setCc_pw : (s.setCc c x h).pw = s.pw := by unfold setCc setCore; rfl
@[simp] theorem setCc_sec : (s.setCc c x h).sec = s.sec := by unfold setCc setCore; rfl
@[simp] theorem setCc_clk : (s.setCc c x h).clk = s.clk := by unfold setCc setCore; rfl
@[simp] theorem setCc_round : (s.setCc c x h).round = s.round := by unfold setCc setCore; rfl
@[simp] theorem setCc_jobD : (s.setCc c x h).jobD = s.jobD := by unfold setCc setCore; rfl
@[simp] theorem setCc_jobT : (s.setCc c x h).jobT = s.jobT := by unfold setCc setCore; rfl
@[simp] theorem setCc_ctrs : (s.setCc c x h).ctrs = s.ctrs := by unfold setCc setCore; rfl
@[simp] theorem setCc_fb : (s.setCc c x h).fb = s.fb := by unfold setCc setCore; rfl
@[simp] theorem setCc_cycles : (s.setCc c x h).cycles = s.cycles := by unfold setCc setCore; rfl
@[simp] theorem setCc_reports : (s.setCc c x h).reports = s.reports := by unfold setCc setCore; rfl
@[simp] theorem setCc_captures : (s.setCc c x h).captures = s.captures := by unfold setCc setCore; rfl
@[simp] theorem setCc_fenceCores : (s.setCc c x h).fenceCores = s.fenceCores := by unfold setCc setCore; rfl
@[simp] theorem setCc_fenceChans : (s.setCc c x h).fenceChans = s.fenceChans := by unfold setCc setCore; rfl
@[simp] theorem setCc_fencePorts : (s.setCc c x h).fencePorts = s.fencePorts := by unfold setCc setCore; rfl
@[simp] theorem setCc_injAddr : (s.setCc c x h).injAddr = s.injAddr := by unfold setCc setCore; rfl
@[simp] theorem setCc_injPoint : (s.setCc c x h).injPoint = s.injPoint := by unfold setCc setCore; rfl
@[simp] theorem setCc_out : (s.setCc c x h).out = s.out := by unfold setCc setCore; rfl
@[simp] theorem setCc_reply : (s.setCc c x h).reply = s.reply := by unfold setCc setCore; rfl
@[simp] theorem setCc_freeIdx : (s.setCc c x h).freeIdx = s.freeIdx := by unfold setCc setCore; rfl

@[simp] theorem setQueue_pending : (s.setQueue c x a q).pending = s.pending := by unfold setQueue setCc setCore; rfl
@[simp] theorem setQueue_regs : (s.setQueue c x a q).regs = s.regs := by unfold setQueue setCc setCore; rfl
@[simp] theorem setQueue_shadow : (s.setQueue c x a q).shadow = s.shadow := by unfold setQueue setCc setCore; rfl
@[simp] theorem setQueue_mem : (s.setQueue c x a q).mem = s.mem := by unfold setQueue setCc setCore; rfl
@[simp] theorem setQueue_poison : (s.setQueue c x a q).poison = s.poison := by unfold setQueue setCc setCore; rfl
@[simp] theorem setQueue_cache : (s.setQueue c x a q).cache = s.cache := by unfold setQueue setCc setCore; rfl
@[simp] theorem setQueue_fills : (s.setQueue c x a q).fills = s.fills := by unfold setQueue setCc setCore; rfl
@[simp] theorem setQueue_rewrites : (s.setQueue c x a q).rewrites = s.rewrites := by unfold setQueue setCc setCore; rfl
@[simp] theorem setQueue_wide : (s.setQueue c x a q).wide = s.wide := by unfold setQueue setCc setCore; rfl
@[simp] theorem setQueue_mboxes : (s.setQueue c x a q).mboxes = s.mboxes := by unfold setQueue setCc setCore; rfl
@[simp] theorem setQueue_epSet : (s.setQueue c x a q).epSet = s.epSet := by unfold setQueue setCc setCore; rfl
@[simp] theorem setQueue_perst : (s.setQueue c x a q).perst = s.perst := by unfold setQueue setCc setCore; rfl
@[simp] theorem setQueue_withy : (s.setQueue c x a q).withy = s.withy := by unfold setQueue setCc setCore; rfl
@[simp] theorem setQueue_withyErrs : (s.setQueue c x a q).withyErrs = s.withyErrs := by unfold setQueue setCc setCore; rfl
@[simp] theorem setQueue_stopTurn : (s.setQueue c x a q).stopTurn = s.stopTurn := by unfold setQueue setCc setCore; rfl
@[simp] theorem setQueue_chans : (s.setQueue c x a q).chans = s.chans := by unfold setQueue setCc setCore; rfl
@[simp] theorem setQueue_msixTab : (s.setQueue c x a q).msixTab = s.msixTab := by unfold setQueue setCc setCore; rfl
@[simp] theorem setQueue_msixPend : (s.setQueue c x a q).msixPend = s.msixPend := by unfold setQueue setCc setCore; rfl
@[simp] theorem setQueue_msixOn : (s.setQueue c x a q).msixOn = s.msixOn := by unfold setQueue setCc setCore; rfl
@[simp] theorem setQueue_msixMask : (s.setQueue c x a q).msixMask = s.msixMask := by unfold setQueue setCc setCore; rfl
@[simp] theorem setQueue_cfgRegs : (s.setQueue c x a q).cfgRegs = s.cfgRegs := by unfold setQueue setCc setCore; rfl
@[simp] theorem setQueue_arbs : (s.setQueue c x a q).arbs = s.arbs := by unfold setQueue setCc setCore; rfl
@[simp] theorem setQueue_loader : (s.setQueue c x a q).loader = s.loader := by unfold setQueue setCc setCore; rfl
@[simp] theorem setQueue_unloads : (s.setQueue c x a q).unloads = s.unloads := by unfold setQueue setCc setCore; rfl
@[simp] theorem setQueue_routes : (s.setQueue c x a q).routes = s.routes := by unfold setQueue setCc setCore; rfl
@[simp] theorem setQueue_mcast : (s.setQueue c x a q).mcast = s.mcast := by unfold setQueue setCc setCore; rfl
@[simp] theorem setQueue_groups : (s.setQueue c x a q).groups = s.groups := by unfold setQueue setCc setCore; rfl
@[simp] theorem setQueue_ports : (s.setQueue c x a q).ports = s.ports := by unfold setQueue setCc setCore; rfl
@[simp] theorem setQueue_remotes : (s.setQueue c x a q).remotes = s.remotes := by unfold setQueue setCc setCore; rfl
@[simp] theorem setQueue_nextReq : (s.setQueue c x a q).nextReq = s.nextReq := by unfold setQueue setCc setCore; rfl
@[simp] theorem setQueue_epochHold : (s.setQueue c x a q).epochHold = s.epochHold := by unfold setQueue setCc setCore; rfl
@[simp] theorem setQueue_held : (s.setQueue c x a q).held = s.held := by unfold setQueue setCc setCore; rfl
@[simp] theorem setQueue_msgParts : (s.setQueue c x a q).msgParts = s.msgParts := by unfold setQueue setCc setCore; rfl
@[simp] theorem setQueue_advancedAt : (s.setQueue c x a q).advancedAt = s.advancedAt := by unfold setQueue setCc setCore; rfl
@[simp] theorem setQueue_adders : (s.setQueue c x a q).adders = s.adders := by unfold setQueue setCc setCore; rfl
@[simp] theorem setQueue_redWait : (s.setQueue c x a q).redWait = s.redWait := by unfold setQueue setCc setCore; rfl
@[simp] theorem setQueue_insts : (s.setQueue c x a q).insts = s.insts := by unfold setQueue setCc setCore; rfl
@[simp] theorem setQueue_returns : (s.setQueue c x a q).returns = s.returns := by unfold setQueue setCc setCore; rfl
@[simp] theorem setQueue_returned : (s.setQueue c x a q).returned = s.returned := by unfold setQueue setCc setCore; rfl
@[simp] theorem setQueue_sends : (s.setQueue c x a q).sends = s.sends := by unfold setQueue setCc setCore; rfl
@[simp] theorem setQueue_sendPend : (s.setQueue c x a q).sendPend = s.sendPend := by unfold setQueue setCc setCore; rfl
@[simp] theorem setQueue_rets : (s.setQueue c x a q).rets = s.rets := by unfold setQueue setCc setCore; rfl
@[simp] theorem setQueue_bindings : (s.setQueue c x a q).bindings = s.bindings := by unfold setQueue setCc setCore; rfl
@[simp] theorem setQueue_retEnts : (s.setQueue c x a q).retEnts = s.retEnts := by unfold setQueue setCc setCore; rfl
@[simp] theorem setQueue_step : (s.setQueue c x a q).step = s.step := by unfold setQueue setCc setCore; rfl
@[simp] theorem setQueue_lsLatch : (s.setQueue c x a q).lsLatch = s.lsLatch := by unfold setQueue setCc setCore; rfl
@[simp] theorem setQueue_led : (s.setQueue c x a q).led = s.led := by unfold setQueue setCc setCore; rfl
@[simp] theorem setQueue_pw : (s.setQueue c x a q).pw = s.pw := by unfold setQueue setCc setCore; rfl
@[simp] theorem setQueue_sec : (s.setQueue c x a q).sec = s.sec := by unfold setQueue setCc setCore; rfl
@[simp] theorem setQueue_clk : (s.setQueue c x a q).clk = s.clk := by unfold setQueue setCc setCore; rfl
@[simp] theorem setQueue_round : (s.setQueue c x a q).round = s.round := by unfold setQueue setCc setCore; rfl
@[simp] theorem setQueue_jobD : (s.setQueue c x a q).jobD = s.jobD := by unfold setQueue setCc setCore; rfl
@[simp] theorem setQueue_jobT : (s.setQueue c x a q).jobT = s.jobT := by unfold setQueue setCc setCore; rfl
@[simp] theorem setQueue_ctrs : (s.setQueue c x a q).ctrs = s.ctrs := by unfold setQueue setCc setCore; rfl
@[simp] theorem setQueue_fb : (s.setQueue c x a q).fb = s.fb := by unfold setQueue setCc setCore; rfl
@[simp] theorem setQueue_cycles : (s.setQueue c x a q).cycles = s.cycles := by unfold setQueue setCc setCore; rfl
@[simp] theorem setQueue_reports : (s.setQueue c x a q).reports = s.reports := by unfold setQueue setCc setCore; rfl
@[simp] theorem setQueue_captures : (s.setQueue c x a q).captures = s.captures := by unfold setQueue setCc setCore; rfl
@[simp] theorem setQueue_fenceCores : (s.setQueue c x a q).fenceCores = s.fenceCores := by unfold setQueue setCc setCore; rfl
@[simp] theorem setQueue_fenceChans : (s.setQueue c x a q).fenceChans = s.fenceChans := by unfold setQueue setCc setCore; rfl
@[simp] theorem setQueue_fencePorts : (s.setQueue c x a q).fencePorts = s.fencePorts := by unfold setQueue setCc setCore; rfl
@[simp] theorem setQueue_injAddr : (s.setQueue c x a q).injAddr = s.injAddr := by unfold setQueue setCc setCore; rfl
@[simp] theorem setQueue_injPoint : (s.setQueue c x a q).injPoint = s.injPoint := by unfold setQueue setCc setCore; rfl
@[simp] theorem setQueue_out : (s.setQueue c x a q).out = s.out := by unfold setQueue setCc setCore; rfl
@[simp] theorem setQueue_reply : (s.setQueue c x a q).reply = s.reply := by unfold setQueue setCc setCore; rfl
@[simp] theorem setQueue_freeIdx : (s.setQueue c x a q).freeIdx = s.freeIdx := by unfold setQueue setCc setCore; rfl

@[simp] theorem setMq_pending : (s.setMq c a w).pending = s.pending := by unfold setMq setCore; rfl
@[simp] theorem setMq_regs : (s.setMq c a w).regs = s.regs := by unfold setMq setCore; rfl
@[simp] theorem setMq_shadow : (s.setMq c a w).shadow = s.shadow := by unfold setMq setCore; rfl
@[simp] theorem setMq_mem : (s.setMq c a w).mem = s.mem := by unfold setMq setCore; rfl
@[simp] theorem setMq_poison : (s.setMq c a w).poison = s.poison := by unfold setMq setCore; rfl
@[simp] theorem setMq_cache : (s.setMq c a w).cache = s.cache := by unfold setMq setCore; rfl
@[simp] theorem setMq_fills : (s.setMq c a w).fills = s.fills := by unfold setMq setCore; rfl
@[simp] theorem setMq_rewrites : (s.setMq c a w).rewrites = s.rewrites := by unfold setMq setCore; rfl
@[simp] theorem setMq_wide : (s.setMq c a w).wide = s.wide := by unfold setMq setCore; rfl
@[simp] theorem setMq_mboxes : (s.setMq c a w).mboxes = s.mboxes := by unfold setMq setCore; rfl
@[simp] theorem setMq_epSet : (s.setMq c a w).epSet = s.epSet := by unfold setMq setCore; rfl
@[simp] theorem setMq_perst : (s.setMq c a w).perst = s.perst := by unfold setMq setCore; rfl
@[simp] theorem setMq_withy : (s.setMq c a w).withy = s.withy := by unfold setMq setCore; rfl
@[simp] theorem setMq_withyErrs : (s.setMq c a w).withyErrs = s.withyErrs := by unfold setMq setCore; rfl
@[simp] theorem setMq_stopTurn : (s.setMq c a w).stopTurn = s.stopTurn := by unfold setMq setCore; rfl
@[simp] theorem setMq_chans : (s.setMq c a w).chans = s.chans := by unfold setMq setCore; rfl
@[simp] theorem setMq_msixTab : (s.setMq c a w).msixTab = s.msixTab := by unfold setMq setCore; rfl
@[simp] theorem setMq_msixPend : (s.setMq c a w).msixPend = s.msixPend := by unfold setMq setCore; rfl
@[simp] theorem setMq_msixOn : (s.setMq c a w).msixOn = s.msixOn := by unfold setMq setCore; rfl
@[simp] theorem setMq_msixMask : (s.setMq c a w).msixMask = s.msixMask := by unfold setMq setCore; rfl
@[simp] theorem setMq_cfgRegs : (s.setMq c a w).cfgRegs = s.cfgRegs := by unfold setMq setCore; rfl
@[simp] theorem setMq_arbs : (s.setMq c a w).arbs = s.arbs := by unfold setMq setCore; rfl
@[simp] theorem setMq_loader : (s.setMq c a w).loader = s.loader := by unfold setMq setCore; rfl
@[simp] theorem setMq_unloads : (s.setMq c a w).unloads = s.unloads := by unfold setMq setCore; rfl
@[simp] theorem setMq_routes : (s.setMq c a w).routes = s.routes := by unfold setMq setCore; rfl
@[simp] theorem setMq_mcast : (s.setMq c a w).mcast = s.mcast := by unfold setMq setCore; rfl
@[simp] theorem setMq_groups : (s.setMq c a w).groups = s.groups := by unfold setMq setCore; rfl
@[simp] theorem setMq_ports : (s.setMq c a w).ports = s.ports := by unfold setMq setCore; rfl
@[simp] theorem setMq_remotes : (s.setMq c a w).remotes = s.remotes := by unfold setMq setCore; rfl
@[simp] theorem setMq_nextReq : (s.setMq c a w).nextReq = s.nextReq := by unfold setMq setCore; rfl
@[simp] theorem setMq_epochHold : (s.setMq c a w).epochHold = s.epochHold := by unfold setMq setCore; rfl
@[simp] theorem setMq_held : (s.setMq c a w).held = s.held := by unfold setMq setCore; rfl
@[simp] theorem setMq_msgParts : (s.setMq c a w).msgParts = s.msgParts := by unfold setMq setCore; rfl
@[simp] theorem setMq_advancedAt : (s.setMq c a w).advancedAt = s.advancedAt := by unfold setMq setCore; rfl
@[simp] theorem setMq_adders : (s.setMq c a w).adders = s.adders := by unfold setMq setCore; rfl
@[simp] theorem setMq_redWait : (s.setMq c a w).redWait = s.redWait := by unfold setMq setCore; rfl
@[simp] theorem setMq_insts : (s.setMq c a w).insts = s.insts := by unfold setMq setCore; rfl
@[simp] theorem setMq_returns : (s.setMq c a w).returns = s.returns := by unfold setMq setCore; rfl
@[simp] theorem setMq_returned : (s.setMq c a w).returned = s.returned := by unfold setMq setCore; rfl
@[simp] theorem setMq_sends : (s.setMq c a w).sends = s.sends := by unfold setMq setCore; rfl
@[simp] theorem setMq_sendPend : (s.setMq c a w).sendPend = s.sendPend := by unfold setMq setCore; rfl
@[simp] theorem setMq_rets : (s.setMq c a w).rets = s.rets := by unfold setMq setCore; rfl
@[simp] theorem setMq_bindings : (s.setMq c a w).bindings = s.bindings := by unfold setMq setCore; rfl
@[simp] theorem setMq_retEnts : (s.setMq c a w).retEnts = s.retEnts := by unfold setMq setCore; rfl
@[simp] theorem setMq_step : (s.setMq c a w).step = s.step := by unfold setMq setCore; rfl
@[simp] theorem setMq_lsLatch : (s.setMq c a w).lsLatch = s.lsLatch := by unfold setMq setCore; rfl
@[simp] theorem setMq_led : (s.setMq c a w).led = s.led := by unfold setMq setCore; rfl
@[simp] theorem setMq_pw : (s.setMq c a w).pw = s.pw := by unfold setMq setCore; rfl
@[simp] theorem setMq_sec : (s.setMq c a w).sec = s.sec := by unfold setMq setCore; rfl
@[simp] theorem setMq_clk : (s.setMq c a w).clk = s.clk := by unfold setMq setCore; rfl
@[simp] theorem setMq_round : (s.setMq c a w).round = s.round := by unfold setMq setCore; rfl
@[simp] theorem setMq_jobD : (s.setMq c a w).jobD = s.jobD := by unfold setMq setCore; rfl
@[simp] theorem setMq_jobT : (s.setMq c a w).jobT = s.jobT := by unfold setMq setCore; rfl
@[simp] theorem setMq_ctrs : (s.setMq c a w).ctrs = s.ctrs := by unfold setMq setCore; rfl
@[simp] theorem setMq_fb : (s.setMq c a w).fb = s.fb := by unfold setMq setCore; rfl
@[simp] theorem setMq_cycles : (s.setMq c a w).cycles = s.cycles := by unfold setMq setCore; rfl
@[simp] theorem setMq_reports : (s.setMq c a w).reports = s.reports := by unfold setMq setCore; rfl
@[simp] theorem setMq_captures : (s.setMq c a w).captures = s.captures := by unfold setMq setCore; rfl
@[simp] theorem setMq_fenceCores : (s.setMq c a w).fenceCores = s.fenceCores := by unfold setMq setCore; rfl
@[simp] theorem setMq_fenceChans : (s.setMq c a w).fenceChans = s.fenceChans := by unfold setMq setCore; rfl
@[simp] theorem setMq_fencePorts : (s.setMq c a w).fencePorts = s.fencePorts := by unfold setMq setCore; rfl
@[simp] theorem setMq_injAddr : (s.setMq c a w).injAddr = s.injAddr := by unfold setMq setCore; rfl
@[simp] theorem setMq_injPoint : (s.setMq c a w).injPoint = s.injPoint := by unfold setMq setCore; rfl
@[simp] theorem setMq_out : (s.setMq c a w).out = s.out := by unfold setMq setCore; rfl
@[simp] theorem setMq_reply : (s.setMq c a w).reply = s.reply := by unfold setMq setCore; rfl
@[simp] theorem setMq_freeIdx : (s.setMq c a w).freeIdx = s.freeIdx := by unfold setMq setCore; rfl

@[simp] theorem setCtr_pending : (s.setCtr c ct).pending = s.pending := by unfold setCtr; rfl
@[simp] theorem setCtr_regs : (s.setCtr c ct).regs = s.regs := by unfold setCtr; rfl
@[simp] theorem setCtr_shadow : (s.setCtr c ct).shadow = s.shadow := by unfold setCtr; rfl
@[simp] theorem setCtr_mem : (s.setCtr c ct).mem = s.mem := by unfold setCtr; rfl
@[simp] theorem setCtr_poison : (s.setCtr c ct).poison = s.poison := by unfold setCtr; rfl
@[simp] theorem setCtr_cache : (s.setCtr c ct).cache = s.cache := by unfold setCtr; rfl
@[simp] theorem setCtr_fills : (s.setCtr c ct).fills = s.fills := by unfold setCtr; rfl
@[simp] theorem setCtr_rewrites : (s.setCtr c ct).rewrites = s.rewrites := by unfold setCtr; rfl
@[simp] theorem setCtr_wide : (s.setCtr c ct).wide = s.wide := by unfold setCtr; rfl
@[simp] theorem setCtr_mboxes : (s.setCtr c ct).mboxes = s.mboxes := by unfold setCtr; rfl
@[simp] theorem setCtr_epSet : (s.setCtr c ct).epSet = s.epSet := by unfold setCtr; rfl
@[simp] theorem setCtr_perst : (s.setCtr c ct).perst = s.perst := by unfold setCtr; rfl
@[simp] theorem setCtr_withy : (s.setCtr c ct).withy = s.withy := by unfold setCtr; rfl
@[simp] theorem setCtr_withyErrs : (s.setCtr c ct).withyErrs = s.withyErrs := by unfold setCtr; rfl
@[simp] theorem setCtr_stopTurn : (s.setCtr c ct).stopTurn = s.stopTurn := by unfold setCtr; rfl
@[simp] theorem setCtr_chans : (s.setCtr c ct).chans = s.chans := by unfold setCtr; rfl
@[simp] theorem setCtr_msixTab : (s.setCtr c ct).msixTab = s.msixTab := by unfold setCtr; rfl
@[simp] theorem setCtr_msixPend : (s.setCtr c ct).msixPend = s.msixPend := by unfold setCtr; rfl
@[simp] theorem setCtr_msixOn : (s.setCtr c ct).msixOn = s.msixOn := by unfold setCtr; rfl
@[simp] theorem setCtr_msixMask : (s.setCtr c ct).msixMask = s.msixMask := by unfold setCtr; rfl
@[simp] theorem setCtr_cfgRegs : (s.setCtr c ct).cfgRegs = s.cfgRegs := by unfold setCtr; rfl
@[simp] theorem setCtr_arbs : (s.setCtr c ct).arbs = s.arbs := by unfold setCtr; rfl
@[simp] theorem setCtr_loader : (s.setCtr c ct).loader = s.loader := by unfold setCtr; rfl
@[simp] theorem setCtr_unloads : (s.setCtr c ct).unloads = s.unloads := by unfold setCtr; rfl
@[simp] theorem setCtr_routes : (s.setCtr c ct).routes = s.routes := by unfold setCtr; rfl
@[simp] theorem setCtr_mcast : (s.setCtr c ct).mcast = s.mcast := by unfold setCtr; rfl
@[simp] theorem setCtr_groups : (s.setCtr c ct).groups = s.groups := by unfold setCtr; rfl
@[simp] theorem setCtr_ports : (s.setCtr c ct).ports = s.ports := by unfold setCtr; rfl
@[simp] theorem setCtr_remotes : (s.setCtr c ct).remotes = s.remotes := by unfold setCtr; rfl
@[simp] theorem setCtr_nextReq : (s.setCtr c ct).nextReq = s.nextReq := by unfold setCtr; rfl
@[simp] theorem setCtr_epochHold : (s.setCtr c ct).epochHold = s.epochHold := by unfold setCtr; rfl
@[simp] theorem setCtr_held : (s.setCtr c ct).held = s.held := by unfold setCtr; rfl
@[simp] theorem setCtr_msgParts : (s.setCtr c ct).msgParts = s.msgParts := by unfold setCtr; rfl
@[simp] theorem setCtr_advancedAt : (s.setCtr c ct).advancedAt = s.advancedAt := by unfold setCtr; rfl
@[simp] theorem setCtr_adders : (s.setCtr c ct).adders = s.adders := by unfold setCtr; rfl
@[simp] theorem setCtr_redWait : (s.setCtr c ct).redWait = s.redWait := by unfold setCtr; rfl
@[simp] theorem setCtr_insts : (s.setCtr c ct).insts = s.insts := by unfold setCtr; rfl
@[simp] theorem setCtr_returns : (s.setCtr c ct).returns = s.returns := by unfold setCtr; rfl
@[simp] theorem setCtr_returned : (s.setCtr c ct).returned = s.returned := by unfold setCtr; rfl
@[simp] theorem setCtr_sends : (s.setCtr c ct).sends = s.sends := by unfold setCtr; rfl
@[simp] theorem setCtr_sendPend : (s.setCtr c ct).sendPend = s.sendPend := by unfold setCtr; rfl
@[simp] theorem setCtr_rets : (s.setCtr c ct).rets = s.rets := by unfold setCtr; rfl
@[simp] theorem setCtr_bindings : (s.setCtr c ct).bindings = s.bindings := by unfold setCtr; rfl
@[simp] theorem setCtr_retEnts : (s.setCtr c ct).retEnts = s.retEnts := by unfold setCtr; rfl
@[simp] theorem setCtr_step : (s.setCtr c ct).step = s.step := by unfold setCtr; rfl
@[simp] theorem setCtr_lsLatch : (s.setCtr c ct).lsLatch = s.lsLatch := by unfold setCtr; rfl
@[simp] theorem setCtr_led : (s.setCtr c ct).led = s.led := by unfold setCtr; rfl
@[simp] theorem setCtr_pw : (s.setCtr c ct).pw = s.pw := by unfold setCtr; rfl
@[simp] theorem setCtr_sec : (s.setCtr c ct).sec = s.sec := by unfold setCtr; rfl
@[simp] theorem setCtr_clk : (s.setCtr c ct).clk = s.clk := by unfold setCtr; rfl
@[simp] theorem setCtr_round : (s.setCtr c ct).round = s.round := by unfold setCtr; rfl
@[simp] theorem setCtr_jobD : (s.setCtr c ct).jobD = s.jobD := by unfold setCtr; rfl
@[simp] theorem setCtr_jobT : (s.setCtr c ct).jobT = s.jobT := by unfold setCtr; rfl
@[simp] theorem setCtr_cores : (s.setCtr c ct).cores = s.cores := by unfold setCtr; rfl
@[simp] theorem setCtr_fb : (s.setCtr c ct).fb = s.fb := by unfold setCtr; rfl
@[simp] theorem setCtr_cycles : (s.setCtr c ct).cycles = s.cycles := by unfold setCtr; rfl
@[simp] theorem setCtr_reports : (s.setCtr c ct).reports = s.reports := by unfold setCtr; rfl
@[simp] theorem setCtr_captures : (s.setCtr c ct).captures = s.captures := by unfold setCtr; rfl
@[simp] theorem setCtr_fenceCores : (s.setCtr c ct).fenceCores = s.fenceCores := by unfold setCtr; rfl
@[simp] theorem setCtr_fenceChans : (s.setCtr c ct).fenceChans = s.fenceChans := by unfold setCtr; rfl
@[simp] theorem setCtr_fencePorts : (s.setCtr c ct).fencePorts = s.fencePorts := by unfold setCtr; rfl
@[simp] theorem setCtr_injAddr : (s.setCtr c ct).injAddr = s.injAddr := by unfold setCtr; rfl
@[simp] theorem setCtr_injPoint : (s.setCtr c ct).injPoint = s.injPoint := by unfold setCtr; rfl
@[simp] theorem setCtr_out : (s.setCtr c ct).out = s.out := by unfold setCtr; rfl
@[simp] theorem setCtr_reply : (s.setCtr c ct).reply = s.reply := by unfold setCtr; rfl
@[simp] theorem setCtr_freeIdx : (s.setCtr c ct).freeIdx = s.freeIdx := by unfold setCtr; rfl

@[simp] theorem setPort_pending : (s.setPort c p).pending = s.pending := by unfold setPort; rfl
@[simp] theorem setPort_regs : (s.setPort c p).regs = s.regs := by unfold setPort; rfl
@[simp] theorem setPort_shadow : (s.setPort c p).shadow = s.shadow := by unfold setPort; rfl
@[simp] theorem setPort_mem : (s.setPort c p).mem = s.mem := by unfold setPort; rfl
@[simp] theorem setPort_poison : (s.setPort c p).poison = s.poison := by unfold setPort; rfl
@[simp] theorem setPort_cache : (s.setPort c p).cache = s.cache := by unfold setPort; rfl
@[simp] theorem setPort_fills : (s.setPort c p).fills = s.fills := by unfold setPort; rfl
@[simp] theorem setPort_rewrites : (s.setPort c p).rewrites = s.rewrites := by unfold setPort; rfl
@[simp] theorem setPort_wide : (s.setPort c p).wide = s.wide := by unfold setPort; rfl
@[simp] theorem setPort_mboxes : (s.setPort c p).mboxes = s.mboxes := by unfold setPort; rfl
@[simp] theorem setPort_epSet : (s.setPort c p).epSet = s.epSet := by unfold setPort; rfl
@[simp] theorem setPort_perst : (s.setPort c p).perst = s.perst := by unfold setPort; rfl
@[simp] theorem setPort_withy : (s.setPort c p).withy = s.withy := by unfold setPort; rfl
@[simp] theorem setPort_withyErrs : (s.setPort c p).withyErrs = s.withyErrs := by unfold setPort; rfl
@[simp] theorem setPort_stopTurn : (s.setPort c p).stopTurn = s.stopTurn := by unfold setPort; rfl
@[simp] theorem setPort_chans : (s.setPort c p).chans = s.chans := by unfold setPort; rfl
@[simp] theorem setPort_msixTab : (s.setPort c p).msixTab = s.msixTab := by unfold setPort; rfl
@[simp] theorem setPort_msixPend : (s.setPort c p).msixPend = s.msixPend := by unfold setPort; rfl
@[simp] theorem setPort_msixOn : (s.setPort c p).msixOn = s.msixOn := by unfold setPort; rfl
@[simp] theorem setPort_msixMask : (s.setPort c p).msixMask = s.msixMask := by unfold setPort; rfl
@[simp] theorem setPort_cfgRegs : (s.setPort c p).cfgRegs = s.cfgRegs := by unfold setPort; rfl
@[simp] theorem setPort_arbs : (s.setPort c p).arbs = s.arbs := by unfold setPort; rfl
@[simp] theorem setPort_loader : (s.setPort c p).loader = s.loader := by unfold setPort; rfl
@[simp] theorem setPort_unloads : (s.setPort c p).unloads = s.unloads := by unfold setPort; rfl
@[simp] theorem setPort_routes : (s.setPort c p).routes = s.routes := by unfold setPort; rfl
@[simp] theorem setPort_mcast : (s.setPort c p).mcast = s.mcast := by unfold setPort; rfl
@[simp] theorem setPort_groups : (s.setPort c p).groups = s.groups := by unfold setPort; rfl
@[simp] theorem setPort_remotes : (s.setPort c p).remotes = s.remotes := by unfold setPort; rfl
@[simp] theorem setPort_nextReq : (s.setPort c p).nextReq = s.nextReq := by unfold setPort; rfl
@[simp] theorem setPort_epochHold : (s.setPort c p).epochHold = s.epochHold := by unfold setPort; rfl
@[simp] theorem setPort_held : (s.setPort c p).held = s.held := by unfold setPort; rfl
@[simp] theorem setPort_msgParts : (s.setPort c p).msgParts = s.msgParts := by unfold setPort; rfl
@[simp] theorem setPort_advancedAt : (s.setPort c p).advancedAt = s.advancedAt := by unfold setPort; rfl
@[simp] theorem setPort_adders : (s.setPort c p).adders = s.adders := by unfold setPort; rfl
@[simp] theorem setPort_redWait : (s.setPort c p).redWait = s.redWait := by unfold setPort; rfl
@[simp] theorem setPort_insts : (s.setPort c p).insts = s.insts := by unfold setPort; rfl
@[simp] theorem setPort_returns : (s.setPort c p).returns = s.returns := by unfold setPort; rfl
@[simp] theorem setPort_returned : (s.setPort c p).returned = s.returned := by unfold setPort; rfl
@[simp] theorem setPort_sends : (s.setPort c p).sends = s.sends := by unfold setPort; rfl
@[simp] theorem setPort_sendPend : (s.setPort c p).sendPend = s.sendPend := by unfold setPort; rfl
@[simp] theorem setPort_rets : (s.setPort c p).rets = s.rets := by unfold setPort; rfl
@[simp] theorem setPort_bindings : (s.setPort c p).bindings = s.bindings := by unfold setPort; rfl
@[simp] theorem setPort_retEnts : (s.setPort c p).retEnts = s.retEnts := by unfold setPort; rfl
@[simp] theorem setPort_step : (s.setPort c p).step = s.step := by unfold setPort; rfl
@[simp] theorem setPort_lsLatch : (s.setPort c p).lsLatch = s.lsLatch := by unfold setPort; rfl
@[simp] theorem setPort_led : (s.setPort c p).led = s.led := by unfold setPort; rfl
@[simp] theorem setPort_pw : (s.setPort c p).pw = s.pw := by unfold setPort; rfl
@[simp] theorem setPort_sec : (s.setPort c p).sec = s.sec := by unfold setPort; rfl
@[simp] theorem setPort_clk : (s.setPort c p).clk = s.clk := by unfold setPort; rfl
@[simp] theorem setPort_round : (s.setPort c p).round = s.round := by unfold setPort; rfl
@[simp] theorem setPort_jobD : (s.setPort c p).jobD = s.jobD := by unfold setPort; rfl
@[simp] theorem setPort_jobT : (s.setPort c p).jobT = s.jobT := by unfold setPort; rfl
@[simp] theorem setPort_ctrs : (s.setPort c p).ctrs = s.ctrs := by unfold setPort; rfl
@[simp] theorem setPort_cores : (s.setPort c p).cores = s.cores := by unfold setPort; rfl
@[simp] theorem setPort_fb : (s.setPort c p).fb = s.fb := by unfold setPort; rfl
@[simp] theorem setPort_cycles : (s.setPort c p).cycles = s.cycles := by unfold setPort; rfl
@[simp] theorem setPort_reports : (s.setPort c p).reports = s.reports := by unfold setPort; rfl
@[simp] theorem setPort_captures : (s.setPort c p).captures = s.captures := by unfold setPort; rfl
@[simp] theorem setPort_fenceCores : (s.setPort c p).fenceCores = s.fenceCores := by unfold setPort; rfl
@[simp] theorem setPort_fenceChans : (s.setPort c p).fenceChans = s.fenceChans := by unfold setPort; rfl
@[simp] theorem setPort_fencePorts : (s.setPort c p).fencePorts = s.fencePorts := by unfold setPort; rfl
@[simp] theorem setPort_injAddr : (s.setPort c p).injAddr = s.injAddr := by unfold setPort; rfl
@[simp] theorem setPort_injPoint : (s.setPort c p).injPoint = s.injPoint := by unfold setPort; rfl
@[simp] theorem setPort_out : (s.setPort c p).out = s.out := by unfold setPort; rfl
@[simp] theorem setPort_reply : (s.setPort c p).reply = s.reply := by unfold setPort; rfl
@[simp] theorem setPort_freeIdx : (s.setPort c p).freeIdx = s.freeIdx := by unfold setPort; rfl

@[simp] theorem setChan_pending : (s.setChan c ch).pending = s.pending := by unfold setChan; rfl
@[simp] theorem setChan_regs : (s.setChan c ch).regs = s.regs := by unfold setChan; rfl
@[simp] theorem setChan_shadow : (s.setChan c ch).shadow = s.shadow := by unfold setChan; rfl
@[simp] theorem setChan_mem : (s.setChan c ch).mem = s.mem := by unfold setChan; rfl
@[simp] theorem setChan_poison : (s.setChan c ch).poison = s.poison := by unfold setChan; rfl
@[simp] theorem setChan_cache : (s.setChan c ch).cache = s.cache := by unfold setChan; rfl
@[simp] theorem setChan_fills : (s.setChan c ch).fills = s.fills := by unfold setChan; rfl
@[simp] theorem setChan_rewrites : (s.setChan c ch).rewrites = s.rewrites := by unfold setChan; rfl
@[simp] theorem setChan_wide : (s.setChan c ch).wide = s.wide := by unfold setChan; rfl
@[simp] theorem setChan_mboxes : (s.setChan c ch).mboxes = s.mboxes := by unfold setChan; rfl
@[simp] theorem setChan_epSet : (s.setChan c ch).epSet = s.epSet := by unfold setChan; rfl
@[simp] theorem setChan_perst : (s.setChan c ch).perst = s.perst := by unfold setChan; rfl
@[simp] theorem setChan_withy : (s.setChan c ch).withy = s.withy := by unfold setChan; rfl
@[simp] theorem setChan_withyErrs : (s.setChan c ch).withyErrs = s.withyErrs := by unfold setChan; rfl
@[simp] theorem setChan_stopTurn : (s.setChan c ch).stopTurn = s.stopTurn := by unfold setChan; rfl
@[simp] theorem setChan_msixTab : (s.setChan c ch).msixTab = s.msixTab := by unfold setChan; rfl
@[simp] theorem setChan_msixPend : (s.setChan c ch).msixPend = s.msixPend := by unfold setChan; rfl
@[simp] theorem setChan_msixOn : (s.setChan c ch).msixOn = s.msixOn := by unfold setChan; rfl
@[simp] theorem setChan_msixMask : (s.setChan c ch).msixMask = s.msixMask := by unfold setChan; rfl
@[simp] theorem setChan_cfgRegs : (s.setChan c ch).cfgRegs = s.cfgRegs := by unfold setChan; rfl
@[simp] theorem setChan_arbs : (s.setChan c ch).arbs = s.arbs := by unfold setChan; rfl
@[simp] theorem setChan_loader : (s.setChan c ch).loader = s.loader := by unfold setChan; rfl
@[simp] theorem setChan_unloads : (s.setChan c ch).unloads = s.unloads := by unfold setChan; rfl
@[simp] theorem setChan_routes : (s.setChan c ch).routes = s.routes := by unfold setChan; rfl
@[simp] theorem setChan_mcast : (s.setChan c ch).mcast = s.mcast := by unfold setChan; rfl
@[simp] theorem setChan_groups : (s.setChan c ch).groups = s.groups := by unfold setChan; rfl
@[simp] theorem setChan_ports : (s.setChan c ch).ports = s.ports := by unfold setChan; rfl
@[simp] theorem setChan_remotes : (s.setChan c ch).remotes = s.remotes := by unfold setChan; rfl
@[simp] theorem setChan_nextReq : (s.setChan c ch).nextReq = s.nextReq := by unfold setChan; rfl
@[simp] theorem setChan_epochHold : (s.setChan c ch).epochHold = s.epochHold := by unfold setChan; rfl
@[simp] theorem setChan_held : (s.setChan c ch).held = s.held := by unfold setChan; rfl
@[simp] theorem setChan_msgParts : (s.setChan c ch).msgParts = s.msgParts := by unfold setChan; rfl
@[simp] theorem setChan_advancedAt : (s.setChan c ch).advancedAt = s.advancedAt := by unfold setChan; rfl
@[simp] theorem setChan_adders : (s.setChan c ch).adders = s.adders := by unfold setChan; rfl
@[simp] theorem setChan_redWait : (s.setChan c ch).redWait = s.redWait := by unfold setChan; rfl
@[simp] theorem setChan_insts : (s.setChan c ch).insts = s.insts := by unfold setChan; rfl
@[simp] theorem setChan_returns : (s.setChan c ch).returns = s.returns := by unfold setChan; rfl
@[simp] theorem setChan_returned : (s.setChan c ch).returned = s.returned := by unfold setChan; rfl
@[simp] theorem setChan_sends : (s.setChan c ch).sends = s.sends := by unfold setChan; rfl
@[simp] theorem setChan_sendPend : (s.setChan c ch).sendPend = s.sendPend := by unfold setChan; rfl
@[simp] theorem setChan_rets : (s.setChan c ch).rets = s.rets := by unfold setChan; rfl
@[simp] theorem setChan_bindings : (s.setChan c ch).bindings = s.bindings := by unfold setChan; rfl
@[simp] theorem setChan_retEnts : (s.setChan c ch).retEnts = s.retEnts := by unfold setChan; rfl
@[simp] theorem setChan_step : (s.setChan c ch).step = s.step := by unfold setChan; rfl
@[simp] theorem setChan_lsLatch : (s.setChan c ch).lsLatch = s.lsLatch := by unfold setChan; rfl
@[simp] theorem setChan_led : (s.setChan c ch).led = s.led := by unfold setChan; rfl
@[simp] theorem setChan_pw : (s.setChan c ch).pw = s.pw := by unfold setChan; rfl
@[simp] theorem setChan_sec : (s.setChan c ch).sec = s.sec := by unfold setChan; rfl
@[simp] theorem setChan_clk : (s.setChan c ch).clk = s.clk := by unfold setChan; rfl
@[simp] theorem setChan_round : (s.setChan c ch).round = s.round := by unfold setChan; rfl
@[simp] theorem setChan_jobD : (s.setChan c ch).jobD = s.jobD := by unfold setChan; rfl
@[simp] theorem setChan_jobT : (s.setChan c ch).jobT = s.jobT := by unfold setChan; rfl
@[simp] theorem setChan_ctrs : (s.setChan c ch).ctrs = s.ctrs := by unfold setChan; rfl
@[simp] theorem setChan_cores : (s.setChan c ch).cores = s.cores := by unfold setChan; rfl
@[simp] theorem setChan_fb : (s.setChan c ch).fb = s.fb := by unfold setChan; rfl
@[simp] theorem setChan_cycles : (s.setChan c ch).cycles = s.cycles := by unfold setChan; rfl
@[simp] theorem setChan_reports : (s.setChan c ch).reports = s.reports := by unfold setChan; rfl
@[simp] theorem setChan_captures : (s.setChan c ch).captures = s.captures := by unfold setChan; rfl
@[simp] theorem setChan_fenceCores : (s.setChan c ch).fenceCores = s.fenceCores := by unfold setChan; rfl
@[simp] theorem setChan_fenceChans : (s.setChan c ch).fenceChans = s.fenceChans := by unfold setChan; rfl
@[simp] theorem setChan_fencePorts : (s.setChan c ch).fencePorts = s.fencePorts := by unfold setChan; rfl
@[simp] theorem setChan_injAddr : (s.setChan c ch).injAddr = s.injAddr := by unfold setChan; rfl
@[simp] theorem setChan_injPoint : (s.setChan c ch).injPoint = s.injPoint := by unfold setChan; rfl
@[simp] theorem setChan_out : (s.setChan c ch).out = s.out := by unfold setChan; rfl
@[simp] theorem setChan_reply : (s.setChan c ch).reply = s.reply := by unfold setChan; rfl
@[simp] theorem setChan_freeIdx : (s.setChan c ch).freeIdx = s.freeIdx := by unfold setChan; rfl

@[simp] theorem setJob_pending : (s.setJob x j).pending = s.pending := by unfold setJob; cases x <;> rfl
@[simp] theorem setJob_regs : (s.setJob x j).regs = s.regs := by unfold setJob; cases x <;> rfl
@[simp] theorem setJob_shadow : (s.setJob x j).shadow = s.shadow := by unfold setJob; cases x <;> rfl
@[simp] theorem setJob_mem : (s.setJob x j).mem = s.mem := by unfold setJob; cases x <;> rfl
@[simp] theorem setJob_poison : (s.setJob x j).poison = s.poison := by unfold setJob; cases x <;> rfl
@[simp] theorem setJob_cache : (s.setJob x j).cache = s.cache := by unfold setJob; cases x <;> rfl
@[simp] theorem setJob_fills : (s.setJob x j).fills = s.fills := by unfold setJob; cases x <;> rfl
@[simp] theorem setJob_rewrites : (s.setJob x j).rewrites = s.rewrites := by unfold setJob; cases x <;> rfl
@[simp] theorem setJob_wide : (s.setJob x j).wide = s.wide := by unfold setJob; cases x <;> rfl
@[simp] theorem setJob_mboxes : (s.setJob x j).mboxes = s.mboxes := by unfold setJob; cases x <;> rfl
@[simp] theorem setJob_epSet : (s.setJob x j).epSet = s.epSet := by unfold setJob; cases x <;> rfl
@[simp] theorem setJob_perst : (s.setJob x j).perst = s.perst := by unfold setJob; cases x <;> rfl
@[simp] theorem setJob_withy : (s.setJob x j).withy = s.withy := by unfold setJob; cases x <;> rfl
@[simp] theorem setJob_withyErrs : (s.setJob x j).withyErrs = s.withyErrs := by unfold setJob; cases x <;> rfl
@[simp] theorem setJob_stopTurn : (s.setJob x j).stopTurn = s.stopTurn := by unfold setJob; cases x <;> rfl
@[simp] theorem setJob_chans : (s.setJob x j).chans = s.chans := by unfold setJob; cases x <;> rfl
@[simp] theorem setJob_msixTab : (s.setJob x j).msixTab = s.msixTab := by unfold setJob; cases x <;> rfl
@[simp] theorem setJob_msixPend : (s.setJob x j).msixPend = s.msixPend := by unfold setJob; cases x <;> rfl
@[simp] theorem setJob_msixOn : (s.setJob x j).msixOn = s.msixOn := by unfold setJob; cases x <;> rfl
@[simp] theorem setJob_msixMask : (s.setJob x j).msixMask = s.msixMask := by unfold setJob; cases x <;> rfl
@[simp] theorem setJob_cfgRegs : (s.setJob x j).cfgRegs = s.cfgRegs := by unfold setJob; cases x <;> rfl
@[simp] theorem setJob_arbs : (s.setJob x j).arbs = s.arbs := by unfold setJob; cases x <;> rfl
@[simp] theorem setJob_loader : (s.setJob x j).loader = s.loader := by unfold setJob; cases x <;> rfl
@[simp] theorem setJob_unloads : (s.setJob x j).unloads = s.unloads := by unfold setJob; cases x <;> rfl
@[simp] theorem setJob_routes : (s.setJob x j).routes = s.routes := by unfold setJob; cases x <;> rfl
@[simp] theorem setJob_mcast : (s.setJob x j).mcast = s.mcast := by unfold setJob; cases x <;> rfl
@[simp] theorem setJob_groups : (s.setJob x j).groups = s.groups := by unfold setJob; cases x <;> rfl
@[simp] theorem setJob_ports : (s.setJob x j).ports = s.ports := by unfold setJob; cases x <;> rfl
@[simp] theorem setJob_remotes : (s.setJob x j).remotes = s.remotes := by unfold setJob; cases x <;> rfl
@[simp] theorem setJob_nextReq : (s.setJob x j).nextReq = s.nextReq := by unfold setJob; cases x <;> rfl
@[simp] theorem setJob_epochHold : (s.setJob x j).epochHold = s.epochHold := by unfold setJob; cases x <;> rfl
@[simp] theorem setJob_held : (s.setJob x j).held = s.held := by unfold setJob; cases x <;> rfl
@[simp] theorem setJob_msgParts : (s.setJob x j).msgParts = s.msgParts := by unfold setJob; cases x <;> rfl
@[simp] theorem setJob_advancedAt : (s.setJob x j).advancedAt = s.advancedAt := by unfold setJob; cases x <;> rfl
@[simp] theorem setJob_adders : (s.setJob x j).adders = s.adders := by unfold setJob; cases x <;> rfl
@[simp] theorem setJob_redWait : (s.setJob x j).redWait = s.redWait := by unfold setJob; cases x <;> rfl
@[simp] theorem setJob_insts : (s.setJob x j).insts = s.insts := by unfold setJob; cases x <;> rfl
@[simp] theorem setJob_returns : (s.setJob x j).returns = s.returns := by unfold setJob; cases x <;> rfl
@[simp] theorem setJob_returned : (s.setJob x j).returned = s.returned := by unfold setJob; cases x <;> rfl
@[simp] theorem setJob_sends : (s.setJob x j).sends = s.sends := by unfold setJob; cases x <;> rfl
@[simp] theorem setJob_sendPend : (s.setJob x j).sendPend = s.sendPend := by unfold setJob; cases x <;> rfl
@[simp] theorem setJob_rets : (s.setJob x j).rets = s.rets := by unfold setJob; cases x <;> rfl
@[simp] theorem setJob_bindings : (s.setJob x j).bindings = s.bindings := by unfold setJob; cases x <;> rfl
@[simp] theorem setJob_retEnts : (s.setJob x j).retEnts = s.retEnts := by unfold setJob; cases x <;> rfl
@[simp] theorem setJob_step : (s.setJob x j).step = s.step := by unfold setJob; cases x <;> rfl
@[simp] theorem setJob_lsLatch : (s.setJob x j).lsLatch = s.lsLatch := by unfold setJob; cases x <;> rfl
@[simp] theorem setJob_led : (s.setJob x j).led = s.led := by unfold setJob; cases x <;> rfl
@[simp] theorem setJob_pw : (s.setJob x j).pw = s.pw := by unfold setJob; cases x <;> rfl
@[simp] theorem setJob_sec : (s.setJob x j).sec = s.sec := by unfold setJob; cases x <;> rfl
@[simp] theorem setJob_clk : (s.setJob x j).clk = s.clk := by unfold setJob; cases x <;> rfl
@[simp] theorem setJob_round : (s.setJob x j).round = s.round := by unfold setJob; cases x <;> rfl
@[simp] theorem setJob_ctrs : (s.setJob x j).ctrs = s.ctrs := by unfold setJob; cases x <;> rfl
@[simp] theorem setJob_cores : (s.setJob x j).cores = s.cores := by unfold setJob; cases x <;> rfl
@[simp] theorem setJob_fb : (s.setJob x j).fb = s.fb := by unfold setJob; cases x <;> rfl
@[simp] theorem setJob_cycles : (s.setJob x j).cycles = s.cycles := by unfold setJob; cases x <;> rfl
@[simp] theorem setJob_reports : (s.setJob x j).reports = s.reports := by unfold setJob; cases x <;> rfl
@[simp] theorem setJob_captures : (s.setJob x j).captures = s.captures := by unfold setJob; cases x <;> rfl
@[simp] theorem setJob_fenceCores : (s.setJob x j).fenceCores = s.fenceCores := by unfold setJob; cases x <;> rfl
@[simp] theorem setJob_fenceChans : (s.setJob x j).fenceChans = s.fenceChans := by unfold setJob; cases x <;> rfl
@[simp] theorem setJob_fencePorts : (s.setJob x j).fencePorts = s.fencePorts := by unfold setJob; cases x <;> rfl
@[simp] theorem setJob_injAddr : (s.setJob x j).injAddr = s.injAddr := by unfold setJob; cases x <;> rfl
@[simp] theorem setJob_injPoint : (s.setJob x j).injPoint = s.injPoint := by unfold setJob; cases x <;> rfl
@[simp] theorem setJob_out : (s.setJob x j).out = s.out := by unfold setJob; cases x <;> rfl
@[simp] theorem setJob_reply : (s.setJob x j).reply = s.reply := by unfold setJob; cases x <;> rfl
@[simp] theorem setJob_freeIdx : (s.setJob x j).freeIdx = s.freeIdx := by unfold setJob; cases x <;> rfl
@[simp] theorem setJob_same : (s.setJob x j).job x = j := by unfold setJob; cases x <;> rfl
@[simp] theorem setJob_other : (s.setJob x j).job (other x) = s.job (other x) := by unfold setJob; cases x <;> rfl

@[simp] theorem emit_pending : (s.emit e).pending = s.pending := by unfold emit; rfl
@[simp] theorem emit_regs : (s.emit e).regs = s.regs := by unfold emit; rfl
@[simp] theorem emit_shadow : (s.emit e).shadow = s.shadow := by unfold emit; rfl
@[simp] theorem emit_mem : (s.emit e).mem = s.mem := by unfold emit; rfl
@[simp] theorem emit_poison : (s.emit e).poison = s.poison := by unfold emit; rfl
@[simp] theorem emit_cache : (s.emit e).cache = s.cache := by unfold emit; rfl
@[simp] theorem emit_fills : (s.emit e).fills = s.fills := by unfold emit; rfl
@[simp] theorem emit_rewrites : (s.emit e).rewrites = s.rewrites := by unfold emit; rfl
@[simp] theorem emit_wide : (s.emit e).wide = s.wide := by unfold emit; rfl
@[simp] theorem emit_mboxes : (s.emit e).mboxes = s.mboxes := by unfold emit; rfl
@[simp] theorem emit_epSet : (s.emit e).epSet = s.epSet := by unfold emit; rfl
@[simp] theorem emit_perst : (s.emit e).perst = s.perst := by unfold emit; rfl
@[simp] theorem emit_withy : (s.emit e).withy = s.withy := by unfold emit; rfl
@[simp] theorem emit_withyErrs : (s.emit e).withyErrs = s.withyErrs := by unfold emit; rfl
@[simp] theorem emit_stopTurn : (s.emit e).stopTurn = s.stopTurn := by unfold emit; rfl
@[simp] theorem emit_chans : (s.emit e).chans = s.chans := by unfold emit; rfl
@[simp] theorem emit_msixTab : (s.emit e).msixTab = s.msixTab := by unfold emit; rfl
@[simp] theorem emit_msixPend : (s.emit e).msixPend = s.msixPend := by unfold emit; rfl
@[simp] theorem emit_msixOn : (s.emit e).msixOn = s.msixOn := by unfold emit; rfl
@[simp] theorem emit_msixMask : (s.emit e).msixMask = s.msixMask := by unfold emit; rfl
@[simp] theorem emit_cfgRegs : (s.emit e).cfgRegs = s.cfgRegs := by unfold emit; rfl
@[simp] theorem emit_arbs : (s.emit e).arbs = s.arbs := by unfold emit; rfl
@[simp] theorem emit_loader : (s.emit e).loader = s.loader := by unfold emit; rfl
@[simp] theorem emit_unloads : (s.emit e).unloads = s.unloads := by unfold emit; rfl
@[simp] theorem emit_routes : (s.emit e).routes = s.routes := by unfold emit; rfl
@[simp] theorem emit_mcast : (s.emit e).mcast = s.mcast := by unfold emit; rfl
@[simp] theorem emit_groups : (s.emit e).groups = s.groups := by unfold emit; rfl
@[simp] theorem emit_ports : (s.emit e).ports = s.ports := by unfold emit; rfl
@[simp] theorem emit_remotes : (s.emit e).remotes = s.remotes := by unfold emit; rfl
@[simp] theorem emit_nextReq : (s.emit e).nextReq = s.nextReq := by unfold emit; rfl
@[simp] theorem emit_epochHold : (s.emit e).epochHold = s.epochHold := by unfold emit; rfl
@[simp] theorem emit_held : (s.emit e).held = s.held := by unfold emit; rfl
@[simp] theorem emit_msgParts : (s.emit e).msgParts = s.msgParts := by unfold emit; rfl
@[simp] theorem emit_advancedAt : (s.emit e).advancedAt = s.advancedAt := by unfold emit; rfl
@[simp] theorem emit_adders : (s.emit e).adders = s.adders := by unfold emit; rfl
@[simp] theorem emit_redWait : (s.emit e).redWait = s.redWait := by unfold emit; rfl
@[simp] theorem emit_insts : (s.emit e).insts = s.insts := by unfold emit; rfl
@[simp] theorem emit_returns : (s.emit e).returns = s.returns := by unfold emit; rfl
@[simp] theorem emit_returned : (s.emit e).returned = s.returned := by unfold emit; rfl
@[simp] theorem emit_sends : (s.emit e).sends = s.sends := by unfold emit; rfl
@[simp] theorem emit_sendPend : (s.emit e).sendPend = s.sendPend := by unfold emit; rfl
@[simp] theorem emit_rets : (s.emit e).rets = s.rets := by unfold emit; rfl
@[simp] theorem emit_bindings : (s.emit e).bindings = s.bindings := by unfold emit; rfl
@[simp] theorem emit_retEnts : (s.emit e).retEnts = s.retEnts := by unfold emit; rfl
@[simp] theorem emit_step : (s.emit e).step = s.step := by unfold emit; rfl
@[simp] theorem emit_lsLatch : (s.emit e).lsLatch = s.lsLatch := by unfold emit; rfl
@[simp] theorem emit_led : (s.emit e).led = s.led := by unfold emit; rfl
@[simp] theorem emit_pw : (s.emit e).pw = s.pw := by unfold emit; rfl
@[simp] theorem emit_sec : (s.emit e).sec = s.sec := by unfold emit; rfl
@[simp] theorem emit_clk : (s.emit e).clk = s.clk := by unfold emit; rfl
@[simp] theorem emit_round : (s.emit e).round = s.round := by unfold emit; rfl
@[simp] theorem emit_jobD : (s.emit e).jobD = s.jobD := by unfold emit; rfl
@[simp] theorem emit_jobT : (s.emit e).jobT = s.jobT := by unfold emit; rfl
@[simp] theorem emit_ctrs : (s.emit e).ctrs = s.ctrs := by unfold emit; rfl
@[simp] theorem emit_cores : (s.emit e).cores = s.cores := by unfold emit; rfl
@[simp] theorem emit_fb : (s.emit e).fb = s.fb := by unfold emit; rfl
@[simp] theorem emit_cycles : (s.emit e).cycles = s.cycles := by unfold emit; rfl
@[simp] theorem emit_reports : (s.emit e).reports = s.reports := by unfold emit; rfl
@[simp] theorem emit_captures : (s.emit e).captures = s.captures := by unfold emit; rfl
@[simp] theorem emit_fenceCores : (s.emit e).fenceCores = s.fenceCores := by unfold emit; rfl
@[simp] theorem emit_fenceChans : (s.emit e).fenceChans = s.fenceChans := by unfold emit; rfl
@[simp] theorem emit_fencePorts : (s.emit e).fencePorts = s.fencePorts := by unfold emit; rfl
@[simp] theorem emit_injAddr : (s.emit e).injAddr = s.injAddr := by unfold emit; rfl
@[simp] theorem emit_injPoint : (s.emit e).injPoint = s.injPoint := by unfold emit; rfl
@[simp] theorem emit_reply : (s.emit e).reply = s.reply := by unfold emit; rfl
@[simp] theorem emit_freeIdx : (s.emit e).freeIdx = s.freeIdx := by unfold emit; rfl

@[simp] theorem reportFrom_pending : (s.reportFrom cl a b i y ac ad m z).pending = s.pending := by unfold reportFrom; rfl
@[simp] theorem reportFrom_regs : (s.reportFrom cl a b i y ac ad m z).regs = s.regs := by unfold reportFrom; rfl
@[simp] theorem reportFrom_shadow : (s.reportFrom cl a b i y ac ad m z).shadow = s.shadow := by unfold reportFrom; rfl
@[simp] theorem reportFrom_mem : (s.reportFrom cl a b i y ac ad m z).mem = s.mem := by unfold reportFrom; rfl
@[simp] theorem reportFrom_poison : (s.reportFrom cl a b i y ac ad m z).poison = s.poison := by unfold reportFrom; rfl
@[simp] theorem reportFrom_cache : (s.reportFrom cl a b i y ac ad m z).cache = s.cache := by unfold reportFrom; rfl
@[simp] theorem reportFrom_fills : (s.reportFrom cl a b i y ac ad m z).fills = s.fills := by unfold reportFrom; rfl
@[simp] theorem reportFrom_rewrites : (s.reportFrom cl a b i y ac ad m z).rewrites = s.rewrites := by unfold reportFrom; rfl
@[simp] theorem reportFrom_wide : (s.reportFrom cl a b i y ac ad m z).wide = s.wide := by unfold reportFrom; rfl
@[simp] theorem reportFrom_mboxes : (s.reportFrom cl a b i y ac ad m z).mboxes = s.mboxes := by unfold reportFrom; rfl
@[simp] theorem reportFrom_epSet : (s.reportFrom cl a b i y ac ad m z).epSet = s.epSet := by unfold reportFrom; rfl
@[simp] theorem reportFrom_perst : (s.reportFrom cl a b i y ac ad m z).perst = s.perst := by unfold reportFrom; rfl
@[simp] theorem reportFrom_withy : (s.reportFrom cl a b i y ac ad m z).withy = s.withy := by unfold reportFrom; rfl
@[simp] theorem reportFrom_withyErrs : (s.reportFrom cl a b i y ac ad m z).withyErrs = s.withyErrs := by unfold reportFrom; rfl
@[simp] theorem reportFrom_stopTurn : (s.reportFrom cl a b i y ac ad m z).stopTurn = s.stopTurn := by unfold reportFrom; rfl
@[simp] theorem reportFrom_chans : (s.reportFrom cl a b i y ac ad m z).chans = s.chans := by unfold reportFrom; rfl
@[simp] theorem reportFrom_msixTab : (s.reportFrom cl a b i y ac ad m z).msixTab = s.msixTab := by unfold reportFrom; rfl
@[simp] theorem reportFrom_msixPend : (s.reportFrom cl a b i y ac ad m z).msixPend = s.msixPend := by unfold reportFrom; rfl
@[simp] theorem reportFrom_msixOn : (s.reportFrom cl a b i y ac ad m z).msixOn = s.msixOn := by unfold reportFrom; rfl
@[simp] theorem reportFrom_msixMask : (s.reportFrom cl a b i y ac ad m z).msixMask = s.msixMask := by unfold reportFrom; rfl
@[simp] theorem reportFrom_cfgRegs : (s.reportFrom cl a b i y ac ad m z).cfgRegs = s.cfgRegs := by unfold reportFrom; rfl
@[simp] theorem reportFrom_arbs : (s.reportFrom cl a b i y ac ad m z).arbs = s.arbs := by unfold reportFrom; rfl
@[simp] theorem reportFrom_loader : (s.reportFrom cl a b i y ac ad m z).loader = s.loader := by unfold reportFrom; rfl
@[simp] theorem reportFrom_unloads : (s.reportFrom cl a b i y ac ad m z).unloads = s.unloads := by unfold reportFrom; rfl
@[simp] theorem reportFrom_routes : (s.reportFrom cl a b i y ac ad m z).routes = s.routes := by unfold reportFrom; rfl
@[simp] theorem reportFrom_mcast : (s.reportFrom cl a b i y ac ad m z).mcast = s.mcast := by unfold reportFrom; rfl
@[simp] theorem reportFrom_groups : (s.reportFrom cl a b i y ac ad m z).groups = s.groups := by unfold reportFrom; rfl
@[simp] theorem reportFrom_ports : (s.reportFrom cl a b i y ac ad m z).ports = s.ports := by unfold reportFrom; rfl
@[simp] theorem reportFrom_remotes : (s.reportFrom cl a b i y ac ad m z).remotes = s.remotes := by unfold reportFrom; rfl
@[simp] theorem reportFrom_nextReq : (s.reportFrom cl a b i y ac ad m z).nextReq = s.nextReq := by unfold reportFrom; rfl
@[simp] theorem reportFrom_epochHold : (s.reportFrom cl a b i y ac ad m z).epochHold = s.epochHold := by unfold reportFrom; rfl
@[simp] theorem reportFrom_held : (s.reportFrom cl a b i y ac ad m z).held = s.held := by unfold reportFrom; rfl
@[simp] theorem reportFrom_msgParts : (s.reportFrom cl a b i y ac ad m z).msgParts = s.msgParts := by unfold reportFrom; rfl
@[simp] theorem reportFrom_advancedAt : (s.reportFrom cl a b i y ac ad m z).advancedAt = s.advancedAt := by unfold reportFrom; rfl
@[simp] theorem reportFrom_adders : (s.reportFrom cl a b i y ac ad m z).adders = s.adders := by unfold reportFrom; rfl
@[simp] theorem reportFrom_redWait : (s.reportFrom cl a b i y ac ad m z).redWait = s.redWait := by unfold reportFrom; rfl
@[simp] theorem reportFrom_insts : (s.reportFrom cl a b i y ac ad m z).insts = s.insts := by unfold reportFrom; rfl
@[simp] theorem reportFrom_returns : (s.reportFrom cl a b i y ac ad m z).returns = s.returns := by unfold reportFrom; rfl
@[simp] theorem reportFrom_returned : (s.reportFrom cl a b i y ac ad m z).returned = s.returned := by unfold reportFrom; rfl
@[simp] theorem reportFrom_sends : (s.reportFrom cl a b i y ac ad m z).sends = s.sends := by unfold reportFrom; rfl
@[simp] theorem reportFrom_sendPend : (s.reportFrom cl a b i y ac ad m z).sendPend = s.sendPend := by unfold reportFrom; rfl
@[simp] theorem reportFrom_rets : (s.reportFrom cl a b i y ac ad m z).rets = s.rets := by unfold reportFrom; rfl
@[simp] theorem reportFrom_bindings : (s.reportFrom cl a b i y ac ad m z).bindings = s.bindings := by unfold reportFrom; rfl
@[simp] theorem reportFrom_retEnts : (s.reportFrom cl a b i y ac ad m z).retEnts = s.retEnts := by unfold reportFrom; rfl
@[simp] theorem reportFrom_step : (s.reportFrom cl a b i y ac ad m z).step = s.step := by unfold reportFrom; rfl
@[simp] theorem reportFrom_lsLatch : (s.reportFrom cl a b i y ac ad m z).lsLatch = s.lsLatch := by unfold reportFrom; rfl
@[simp] theorem reportFrom_led : (s.reportFrom cl a b i y ac ad m z).led = s.led := by unfold reportFrom; rfl
@[simp] theorem reportFrom_pw : (s.reportFrom cl a b i y ac ad m z).pw = s.pw := by unfold reportFrom; rfl
@[simp] theorem reportFrom_sec : (s.reportFrom cl a b i y ac ad m z).sec = s.sec := by unfold reportFrom; rfl
@[simp] theorem reportFrom_clk : (s.reportFrom cl a b i y ac ad m z).clk = s.clk := by unfold reportFrom; rfl
@[simp] theorem reportFrom_round : (s.reportFrom cl a b i y ac ad m z).round = s.round := by unfold reportFrom; rfl
@[simp] theorem reportFrom_jobD : (s.reportFrom cl a b i y ac ad m z).jobD = s.jobD := by unfold reportFrom; rfl
@[simp] theorem reportFrom_jobT : (s.reportFrom cl a b i y ac ad m z).jobT = s.jobT := by unfold reportFrom; rfl
@[simp] theorem reportFrom_ctrs : (s.reportFrom cl a b i y ac ad m z).ctrs = s.ctrs := by unfold reportFrom; rfl
@[simp] theorem reportFrom_cores : (s.reportFrom cl a b i y ac ad m z).cores = s.cores := by unfold reportFrom; rfl
@[simp] theorem reportFrom_fb : (s.reportFrom cl a b i y ac ad m z).fb = s.fb := by unfold reportFrom; rfl
@[simp] theorem reportFrom_cycles : (s.reportFrom cl a b i y ac ad m z).cycles = s.cycles := by unfold reportFrom; rfl
@[simp] theorem reportFrom_captures : (s.reportFrom cl a b i y ac ad m z).captures = s.captures := by unfold reportFrom; rfl
@[simp] theorem reportFrom_fenceCores : (s.reportFrom cl a b i y ac ad m z).fenceCores = s.fenceCores := by unfold reportFrom; rfl
@[simp] theorem reportFrom_fenceChans : (s.reportFrom cl a b i y ac ad m z).fenceChans = s.fenceChans := by unfold reportFrom; rfl
@[simp] theorem reportFrom_fencePorts : (s.reportFrom cl a b i y ac ad m z).fencePorts = s.fencePorts := by unfold reportFrom; rfl
@[simp] theorem reportFrom_injAddr : (s.reportFrom cl a b i y ac ad m z).injAddr = s.injAddr := by unfold reportFrom; rfl
@[simp] theorem reportFrom_injPoint : (s.reportFrom cl a b i y ac ad m z).injPoint = s.injPoint := by unfold reportFrom; rfl
@[simp] theorem reportFrom_out : (s.reportFrom cl a b i y ac ad m z).out = s.out := by unfold reportFrom; rfl
@[simp] theorem reportFrom_reply : (s.reportFrom cl a b i y ac ad m z).reply = s.reply := by unfold reportFrom; rfl
@[simp] theorem reportFrom_freeIdx : (s.reportFrom cl a b i y ac ad m z).freeIdx = s.freeIdx := by unfold reportFrom; rfl

@[simp] theorem st_pending : (s.st a bs).pending = s.pending := by unfold st; rfl
@[simp] theorem st_regs : (s.st a bs).regs = s.regs := by unfold st; rfl
@[simp] theorem st_shadow : (s.st a bs).shadow = s.shadow := by unfold st; rfl
@[simp] theorem st_cache : (s.st a bs).cache = s.cache := by unfold st; rfl
@[simp] theorem st_fills : (s.st a bs).fills = s.fills := by unfold st; rfl
@[simp] theorem st_rewrites : (s.st a bs).rewrites = s.rewrites := by unfold st; rfl
@[simp] theorem st_wide : (s.st a bs).wide = s.wide := by unfold st; rfl
@[simp] theorem st_mboxes : (s.st a bs).mboxes = s.mboxes := by unfold st; rfl
@[simp] theorem st_epSet : (s.st a bs).epSet = s.epSet := by unfold st; rfl
@[simp] theorem st_perst : (s.st a bs).perst = s.perst := by unfold st; rfl
@[simp] theorem st_withy : (s.st a bs).withy = s.withy := by unfold st; rfl
@[simp] theorem st_withyErrs : (s.st a bs).withyErrs = s.withyErrs := by unfold st; rfl
@[simp] theorem st_stopTurn : (s.st a bs).stopTurn = s.stopTurn := by unfold st; rfl
@[simp] theorem st_chans : (s.st a bs).chans = s.chans := by unfold st; rfl
@[simp] theorem st_msixTab : (s.st a bs).msixTab = s.msixTab := by unfold st; rfl
@[simp] theorem st_msixPend : (s.st a bs).msixPend = s.msixPend := by unfold st; rfl
@[simp] theorem st_msixOn : (s.st a bs).msixOn = s.msixOn := by unfold st; rfl
@[simp] theorem st_msixMask : (s.st a bs).msixMask = s.msixMask := by unfold st; rfl
@[simp] theorem st_cfgRegs : (s.st a bs).cfgRegs = s.cfgRegs := by unfold st; rfl
@[simp] theorem st_arbs : (s.st a bs).arbs = s.arbs := by unfold st; rfl
@[simp] theorem st_loader : (s.st a bs).loader = s.loader := by unfold st; rfl
@[simp] theorem st_unloads : (s.st a bs).unloads = s.unloads := by unfold st; rfl
@[simp] theorem st_routes : (s.st a bs).routes = s.routes := by unfold st; rfl
@[simp] theorem st_mcast : (s.st a bs).mcast = s.mcast := by unfold st; rfl
@[simp] theorem st_groups : (s.st a bs).groups = s.groups := by unfold st; rfl
@[simp] theorem st_ports : (s.st a bs).ports = s.ports := by unfold st; rfl
@[simp] theorem st_remotes : (s.st a bs).remotes = s.remotes := by unfold st; rfl
@[simp] theorem st_nextReq : (s.st a bs).nextReq = s.nextReq := by unfold st; rfl
@[simp] theorem st_epochHold : (s.st a bs).epochHold = s.epochHold := by unfold st; rfl
@[simp] theorem st_held : (s.st a bs).held = s.held := by unfold st; rfl
@[simp] theorem st_msgParts : (s.st a bs).msgParts = s.msgParts := by unfold st; rfl
@[simp] theorem st_advancedAt : (s.st a bs).advancedAt = s.advancedAt := by unfold st; rfl
@[simp] theorem st_adders : (s.st a bs).adders = s.adders := by unfold st; rfl
@[simp] theorem st_redWait : (s.st a bs).redWait = s.redWait := by unfold st; rfl
@[simp] theorem st_insts : (s.st a bs).insts = s.insts := by unfold st; rfl
@[simp] theorem st_returns : (s.st a bs).returns = s.returns := by unfold st; rfl
@[simp] theorem st_returned : (s.st a bs).returned = s.returned := by unfold st; rfl
@[simp] theorem st_sends : (s.st a bs).sends = s.sends := by unfold st; rfl
@[simp] theorem st_sendPend : (s.st a bs).sendPend = s.sendPend := by unfold st; rfl
@[simp] theorem st_rets : (s.st a bs).rets = s.rets := by unfold st; rfl
@[simp] theorem st_bindings : (s.st a bs).bindings = s.bindings := by unfold st; rfl
@[simp] theorem st_retEnts : (s.st a bs).retEnts = s.retEnts := by unfold st; rfl
@[simp] theorem st_step : (s.st a bs).step = s.step := by unfold st; rfl
@[simp] theorem st_lsLatch : (s.st a bs).lsLatch = s.lsLatch := by unfold st; rfl
@[simp] theorem st_led : (s.st a bs).led = s.led := by unfold st; rfl
@[simp] theorem st_pw : (s.st a bs).pw = s.pw := by unfold st; rfl
@[simp] theorem st_sec : (s.st a bs).sec = s.sec := by unfold st; rfl
@[simp] theorem st_clk : (s.st a bs).clk = s.clk := by unfold st; rfl
@[simp] theorem st_round : (s.st a bs).round = s.round := by unfold st; rfl
@[simp] theorem st_jobD : (s.st a bs).jobD = s.jobD := by unfold st; rfl
@[simp] theorem st_jobT : (s.st a bs).jobT = s.jobT := by unfold st; rfl
@[simp] theorem st_ctrs : (s.st a bs).ctrs = s.ctrs := by unfold st; rfl
@[simp] theorem st_cores : (s.st a bs).cores = s.cores := by unfold st; rfl
@[simp] theorem st_fb : (s.st a bs).fb = s.fb := by unfold st; rfl
@[simp] theorem st_cycles : (s.st a bs).cycles = s.cycles := by unfold st; rfl
@[simp] theorem st_reports : (s.st a bs).reports = s.reports := by unfold st; rfl
@[simp] theorem st_captures : (s.st a bs).captures = s.captures := by unfold st; rfl
@[simp] theorem st_fenceCores : (s.st a bs).fenceCores = s.fenceCores := by unfold st; rfl
@[simp] theorem st_fenceChans : (s.st a bs).fenceChans = s.fenceChans := by unfold st; rfl
@[simp] theorem st_fencePorts : (s.st a bs).fencePorts = s.fencePorts := by unfold st; rfl
@[simp] theorem st_injAddr : (s.st a bs).injAddr = s.injAddr := by unfold st; rfl
@[simp] theorem st_injPoint : (s.st a bs).injPoint = s.injPoint := by unfold st; rfl
@[simp] theorem st_out : (s.st a bs).out = s.out := by unfold st; rfl
@[simp] theorem st_reply : (s.st a bs).reply = s.reply := by unfold st; rfl
@[simp] theorem st_freeIdx : (s.st a bs).freeIdx = s.freeIdx := by unfold st; rfl

@[simp] theorem stPoison_pending : (s.stPoison a bs).pending = s.pending := by unfold stPoison; rfl
@[simp] theorem stPoison_regs : (s.stPoison a bs).regs = s.regs := by unfold stPoison; rfl
@[simp] theorem stPoison_shadow : (s.stPoison a bs).shadow = s.shadow := by unfold stPoison; rfl
@[simp] theorem stPoison_cache : (s.stPoison a bs).cache = s.cache := by unfold stPoison; rfl
@[simp] theorem stPoison_fills : (s.stPoison a bs).fills = s.fills := by unfold stPoison; rfl
@[simp] theorem stPoison_rewrites : (s.stPoison a bs).rewrites = s.rewrites := by unfold stPoison; rfl
@[simp] theorem stPoison_wide : (s.stPoison a bs).wide = s.wide := by unfold stPoison; rfl
@[simp] theorem stPoison_mboxes : (s.stPoison a bs).mboxes = s.mboxes := by unfold stPoison; rfl
@[simp] theorem stPoison_epSet : (s.stPoison a bs).epSet = s.epSet := by unfold stPoison; rfl
@[simp] theorem stPoison_perst : (s.stPoison a bs).perst = s.perst := by unfold stPoison; rfl
@[simp] theorem stPoison_withy : (s.stPoison a bs).withy = s.withy := by unfold stPoison; rfl
@[simp] theorem stPoison_withyErrs : (s.stPoison a bs).withyErrs = s.withyErrs := by unfold stPoison; rfl
@[simp] theorem stPoison_stopTurn : (s.stPoison a bs).stopTurn = s.stopTurn := by unfold stPoison; rfl
@[simp] theorem stPoison_chans : (s.stPoison a bs).chans = s.chans := by unfold stPoison; rfl
@[simp] theorem stPoison_msixTab : (s.stPoison a bs).msixTab = s.msixTab := by unfold stPoison; rfl
@[simp] theorem stPoison_msixPend : (s.stPoison a bs).msixPend = s.msixPend := by unfold stPoison; rfl
@[simp] theorem stPoison_msixOn : (s.stPoison a bs).msixOn = s.msixOn := by unfold stPoison; rfl
@[simp] theorem stPoison_msixMask : (s.stPoison a bs).msixMask = s.msixMask := by unfold stPoison; rfl
@[simp] theorem stPoison_cfgRegs : (s.stPoison a bs).cfgRegs = s.cfgRegs := by unfold stPoison; rfl
@[simp] theorem stPoison_arbs : (s.stPoison a bs).arbs = s.arbs := by unfold stPoison; rfl
@[simp] theorem stPoison_loader : (s.stPoison a bs).loader = s.loader := by unfold stPoison; rfl
@[simp] theorem stPoison_unloads : (s.stPoison a bs).unloads = s.unloads := by unfold stPoison; rfl
@[simp] theorem stPoison_routes : (s.stPoison a bs).routes = s.routes := by unfold stPoison; rfl
@[simp] theorem stPoison_mcast : (s.stPoison a bs).mcast = s.mcast := by unfold stPoison; rfl
@[simp] theorem stPoison_groups : (s.stPoison a bs).groups = s.groups := by unfold stPoison; rfl
@[simp] theorem stPoison_ports : (s.stPoison a bs).ports = s.ports := by unfold stPoison; rfl
@[simp] theorem stPoison_remotes : (s.stPoison a bs).remotes = s.remotes := by unfold stPoison; rfl
@[simp] theorem stPoison_nextReq : (s.stPoison a bs).nextReq = s.nextReq := by unfold stPoison; rfl
@[simp] theorem stPoison_epochHold : (s.stPoison a bs).epochHold = s.epochHold := by unfold stPoison; rfl
@[simp] theorem stPoison_held : (s.stPoison a bs).held = s.held := by unfold stPoison; rfl
@[simp] theorem stPoison_msgParts : (s.stPoison a bs).msgParts = s.msgParts := by unfold stPoison; rfl
@[simp] theorem stPoison_advancedAt : (s.stPoison a bs).advancedAt = s.advancedAt := by unfold stPoison; rfl
@[simp] theorem stPoison_adders : (s.stPoison a bs).adders = s.adders := by unfold stPoison; rfl
@[simp] theorem stPoison_redWait : (s.stPoison a bs).redWait = s.redWait := by unfold stPoison; rfl
@[simp] theorem stPoison_insts : (s.stPoison a bs).insts = s.insts := by unfold stPoison; rfl
@[simp] theorem stPoison_returns : (s.stPoison a bs).returns = s.returns := by unfold stPoison; rfl
@[simp] theorem stPoison_returned : (s.stPoison a bs).returned = s.returned := by unfold stPoison; rfl
@[simp] theorem stPoison_sends : (s.stPoison a bs).sends = s.sends := by unfold stPoison; rfl
@[simp] theorem stPoison_sendPend : (s.stPoison a bs).sendPend = s.sendPend := by unfold stPoison; rfl
@[simp] theorem stPoison_rets : (s.stPoison a bs).rets = s.rets := by unfold stPoison; rfl
@[simp] theorem stPoison_bindings : (s.stPoison a bs).bindings = s.bindings := by unfold stPoison; rfl
@[simp] theorem stPoison_retEnts : (s.stPoison a bs).retEnts = s.retEnts := by unfold stPoison; rfl
@[simp] theorem stPoison_step : (s.stPoison a bs).step = s.step := by unfold stPoison; rfl
@[simp] theorem stPoison_lsLatch : (s.stPoison a bs).lsLatch = s.lsLatch := by unfold stPoison; rfl
@[simp] theorem stPoison_led : (s.stPoison a bs).led = s.led := by unfold stPoison; rfl
@[simp] theorem stPoison_pw : (s.stPoison a bs).pw = s.pw := by unfold stPoison; rfl
@[simp] theorem stPoison_sec : (s.stPoison a bs).sec = s.sec := by unfold stPoison; rfl
@[simp] theorem stPoison_clk : (s.stPoison a bs).clk = s.clk := by unfold stPoison; rfl
@[simp] theorem stPoison_round : (s.stPoison a bs).round = s.round := by unfold stPoison; rfl
@[simp] theorem stPoison_jobD : (s.stPoison a bs).jobD = s.jobD := by unfold stPoison; rfl
@[simp] theorem stPoison_jobT : (s.stPoison a bs).jobT = s.jobT := by unfold stPoison; rfl
@[simp] theorem stPoison_ctrs : (s.stPoison a bs).ctrs = s.ctrs := by unfold stPoison; rfl
@[simp] theorem stPoison_cores : (s.stPoison a bs).cores = s.cores := by unfold stPoison; rfl
@[simp] theorem stPoison_fb : (s.stPoison a bs).fb = s.fb := by unfold stPoison; rfl
@[simp] theorem stPoison_cycles : (s.stPoison a bs).cycles = s.cycles := by unfold stPoison; rfl
@[simp] theorem stPoison_reports : (s.stPoison a bs).reports = s.reports := by unfold stPoison; rfl
@[simp] theorem stPoison_captures : (s.stPoison a bs).captures = s.captures := by unfold stPoison; rfl
@[simp] theorem stPoison_fenceCores : (s.stPoison a bs).fenceCores = s.fenceCores := by unfold stPoison; rfl
@[simp] theorem stPoison_fenceChans : (s.stPoison a bs).fenceChans = s.fenceChans := by unfold stPoison; rfl
@[simp] theorem stPoison_fencePorts : (s.stPoison a bs).fencePorts = s.fencePorts := by unfold stPoison; rfl
@[simp] theorem stPoison_injAddr : (s.stPoison a bs).injAddr = s.injAddr := by unfold stPoison; rfl
@[simp] theorem stPoison_injPoint : (s.stPoison a bs).injPoint = s.injPoint := by unfold stPoison; rfl
@[simp] theorem stPoison_out : (s.stPoison a bs).out = s.out := by unfold stPoison; rfl
@[simp] theorem stPoison_reply : (s.stPoison a bs).reply = s.reply := by unfold stPoison; rfl
@[simp] theorem stPoison_freeIdx : (s.stPoison a bs).freeIdx = s.freeIdx := by unfold stPoison; rfl

@[simp] theorem wideSet_pending : (s.wideSet a b w64).pending = s.pending := by unfold wideSet; rfl
@[simp] theorem wideSet_regs : (s.wideSet a b w64).regs = s.regs := by unfold wideSet; rfl
@[simp] theorem wideSet_shadow : (s.wideSet a b w64).shadow = s.shadow := by unfold wideSet; rfl
@[simp] theorem wideSet_mem : (s.wideSet a b w64).mem = s.mem := by unfold wideSet; rfl
@[simp] theorem wideSet_poison : (s.wideSet a b w64).poison = s.poison := by unfold wideSet; rfl
@[simp] theorem wideSet_cache : (s.wideSet a b w64).cache = s.cache := by unfold wideSet; rfl
@[simp] theorem wideSet_fills : (s.wideSet a b w64).fills = s.fills := by unfold wideSet; rfl
@[simp] theorem wideSet_rewrites : (s.wideSet a b w64).rewrites = s.rewrites := by unfold wideSet; rfl
@[simp] theorem wideSet_mboxes : (s.wideSet a b w64).mboxes = s.mboxes := by unfold wideSet; rfl
@[simp] theorem wideSet_epSet : (s.wideSet a b w64).epSet = s.epSet := by unfold wideSet; rfl
@[simp] theorem wideSet_perst : (s.wideSet a b w64).perst = s.perst := by unfold wideSet; rfl
@[simp] theorem wideSet_withy : (s.wideSet a b w64).withy = s.withy := by unfold wideSet; rfl
@[simp] theorem wideSet_withyErrs : (s.wideSet a b w64).withyErrs = s.withyErrs := by unfold wideSet; rfl
@[simp] theorem wideSet_stopTurn : (s.wideSet a b w64).stopTurn = s.stopTurn := by unfold wideSet; rfl
@[simp] theorem wideSet_chans : (s.wideSet a b w64).chans = s.chans := by unfold wideSet; rfl
@[simp] theorem wideSet_msixTab : (s.wideSet a b w64).msixTab = s.msixTab := by unfold wideSet; rfl
@[simp] theorem wideSet_msixPend : (s.wideSet a b w64).msixPend = s.msixPend := by unfold wideSet; rfl
@[simp] theorem wideSet_msixOn : (s.wideSet a b w64).msixOn = s.msixOn := by unfold wideSet; rfl
@[simp] theorem wideSet_msixMask : (s.wideSet a b w64).msixMask = s.msixMask := by unfold wideSet; rfl
@[simp] theorem wideSet_cfgRegs : (s.wideSet a b w64).cfgRegs = s.cfgRegs := by unfold wideSet; rfl
@[simp] theorem wideSet_arbs : (s.wideSet a b w64).arbs = s.arbs := by unfold wideSet; rfl
@[simp] theorem wideSet_loader : (s.wideSet a b w64).loader = s.loader := by unfold wideSet; rfl
@[simp] theorem wideSet_unloads : (s.wideSet a b w64).unloads = s.unloads := by unfold wideSet; rfl
@[simp] theorem wideSet_routes : (s.wideSet a b w64).routes = s.routes := by unfold wideSet; rfl
@[simp] theorem wideSet_mcast : (s.wideSet a b w64).mcast = s.mcast := by unfold wideSet; rfl
@[simp] theorem wideSet_groups : (s.wideSet a b w64).groups = s.groups := by unfold wideSet; rfl
@[simp] theorem wideSet_ports : (s.wideSet a b w64).ports = s.ports := by unfold wideSet; rfl
@[simp] theorem wideSet_remotes : (s.wideSet a b w64).remotes = s.remotes := by unfold wideSet; rfl
@[simp] theorem wideSet_nextReq : (s.wideSet a b w64).nextReq = s.nextReq := by unfold wideSet; rfl
@[simp] theorem wideSet_epochHold : (s.wideSet a b w64).epochHold = s.epochHold := by unfold wideSet; rfl
@[simp] theorem wideSet_held : (s.wideSet a b w64).held = s.held := by unfold wideSet; rfl
@[simp] theorem wideSet_msgParts : (s.wideSet a b w64).msgParts = s.msgParts := by unfold wideSet; rfl
@[simp] theorem wideSet_advancedAt : (s.wideSet a b w64).advancedAt = s.advancedAt := by unfold wideSet; rfl
@[simp] theorem wideSet_adders : (s.wideSet a b w64).adders = s.adders := by unfold wideSet; rfl
@[simp] theorem wideSet_redWait : (s.wideSet a b w64).redWait = s.redWait := by unfold wideSet; rfl
@[simp] theorem wideSet_insts : (s.wideSet a b w64).insts = s.insts := by unfold wideSet; rfl
@[simp] theorem wideSet_returns : (s.wideSet a b w64).returns = s.returns := by unfold wideSet; rfl
@[simp] theorem wideSet_returned : (s.wideSet a b w64).returned = s.returned := by unfold wideSet; rfl
@[simp] theorem wideSet_sends : (s.wideSet a b w64).sends = s.sends := by unfold wideSet; rfl
@[simp] theorem wideSet_sendPend : (s.wideSet a b w64).sendPend = s.sendPend := by unfold wideSet; rfl
@[simp] theorem wideSet_rets : (s.wideSet a b w64).rets = s.rets := by unfold wideSet; rfl
@[simp] theorem wideSet_bindings : (s.wideSet a b w64).bindings = s.bindings := by unfold wideSet; rfl
@[simp] theorem wideSet_retEnts : (s.wideSet a b w64).retEnts = s.retEnts := by unfold wideSet; rfl
@[simp] theorem wideSet_step : (s.wideSet a b w64).step = s.step := by unfold wideSet; rfl
@[simp] theorem wideSet_lsLatch : (s.wideSet a b w64).lsLatch = s.lsLatch := by unfold wideSet; rfl
@[simp] theorem wideSet_led : (s.wideSet a b w64).led = s.led := by unfold wideSet; rfl
@[simp] theorem wideSet_pw : (s.wideSet a b w64).pw = s.pw := by unfold wideSet; rfl
@[simp] theorem wideSet_sec : (s.wideSet a b w64).sec = s.sec := by unfold wideSet; rfl
@[simp] theorem wideSet_clk : (s.wideSet a b w64).clk = s.clk := by unfold wideSet; rfl
@[simp] theorem wideSet_round : (s.wideSet a b w64).round = s.round := by unfold wideSet; rfl
@[simp] theorem wideSet_jobD : (s.wideSet a b w64).jobD = s.jobD := by unfold wideSet; rfl
@[simp] theorem wideSet_jobT : (s.wideSet a b w64).jobT = s.jobT := by unfold wideSet; rfl
@[simp] theorem wideSet_ctrs : (s.wideSet a b w64).ctrs = s.ctrs := by unfold wideSet; rfl
@[simp] theorem wideSet_cores : (s.wideSet a b w64).cores = s.cores := by unfold wideSet; rfl
@[simp] theorem wideSet_fb : (s.wideSet a b w64).fb = s.fb := by unfold wideSet; rfl
@[simp] theorem wideSet_cycles : (s.wideSet a b w64).cycles = s.cycles := by unfold wideSet; rfl
@[simp] theorem wideSet_reports : (s.wideSet a b w64).reports = s.reports := by unfold wideSet; rfl
@[simp] theorem wideSet_captures : (s.wideSet a b w64).captures = s.captures := by unfold wideSet; rfl
@[simp] theorem wideSet_fenceCores : (s.wideSet a b w64).fenceCores = s.fenceCores := by unfold wideSet; rfl
@[simp] theorem wideSet_fenceChans : (s.wideSet a b w64).fenceChans = s.fenceChans := by unfold wideSet; rfl
@[simp] theorem wideSet_fencePorts : (s.wideSet a b w64).fencePorts = s.fencePorts := by unfold wideSet; rfl
@[simp] theorem wideSet_injAddr : (s.wideSet a b w64).injAddr = s.injAddr := by unfold wideSet; rfl
@[simp] theorem wideSet_injPoint : (s.wideSet a b w64).injPoint = s.injPoint := by unfold wideSet; rfl
@[simp] theorem wideSet_out : (s.wideSet a b w64).out = s.out := by unfold wideSet; rfl
@[simp] theorem wideSet_reply : (s.wideSet a b w64).reply = s.reply := by unfold wideSet; rfl
@[simp] theorem wideSet_freeIdx : (s.wideSet a b w64).freeIdx = s.freeIdx := by unfold wideSet; rfl

end Sys2Proof.Machine.State
end

