-- ==== Sys2Proof/Laws/Core.lean ====
section
/-! SUPPORT. Sys2Proof/Laws/Core.lean: reading cores, contexts on cores, queues, counters, message queues, channels, ports and
wide values after a write of one of them. -/

namespace Sys2Proof.Machine

@[simp] theorem State.core_setCore_same (s : State) (c : Nat) (k : CoreS) : (s.setCore c k).core c = k := by
  simp [State.core, State.setCore]
theorem State.core_setCore_other (s : State) {c d : Nat} (k : CoreS) (h : d ≠ c) : (s.setCore c k).core d = s.core d := by
  simp only [State.core, State.setCore]; exact tget_tput_other _ _ _ _ h

@[simp] theorem CoreS.ctx_setCtx_same (k : CoreS) (x : Ctx) (h : CoreCtx) : (k.setCtx x h).ctx x = h := by
  cases x <;> rfl
@[simp] theorem CoreS.ctx_setCtx_other (k : CoreS) (x : Ctx) (h : CoreCtx) :
    (k.setCtx x h).ctx (other x) = k.ctx (other x) := by cases x <;> rfl
theorem CoreS.setCtx_setCtx (k : CoreS) (x : Ctx) (h h' : CoreCtx) : (k.setCtx x h).setCtx x h' = k.setCtx x h' := by
  cases x <;> rfl

@[simp] theorem State.cc_setCc_same (s : State) (c : Nat) (x : Ctx) (h : CoreCtx) : (s.setCc c x h).cc c x = h := by
  simp [State.cc, State.setCc]
@[simp] theorem State.cc_setCc_other (s : State) (c : Nat) (x : Ctx) (h : CoreCtx) :
    (s.setCc c x h).cc c (other x) = s.cc c (other x) := by simp [State.cc, State.setCc]
theorem State.cc_setCc_core (s : State) {c d : Nat} (x y : Ctx) (h : CoreCtx) (hd : d ≠ c) :
    (s.setCc c x h).cc d y = s.cc d y := by simp [State.cc, State.setCc, s.core_setCore_other _ hd]
theorem State.core_setCc_other (s : State) {c d : Nat} (x : Ctx) (h : CoreCtx) (hd : d ≠ c) :
    (s.setCc c x h).core d = s.core d := s.core_setCore_other _ hd
@[simp] theorem State.core_setCc_same (s : State) (c : Nat) (x : Ctx) (h : CoreCtx) :
    (s.setCc c x h).core c = (s.core c).setCtx x h := by simp [State.setCc]

theorem CoreS.setCtx_infl (k : CoreS) (x : Ctx) (h : CoreCtx) : (k.setCtx x h).infl = k.infl := by cases x <;> rfl
theorem CoreS.setCtx_mats (k : CoreS) (x : Ctx) (h : CoreCtx) : (k.setCtx x h).mats = k.mats := by cases x <;> rfl
theorem CoreS.setCtx_vregs (k : CoreS) (x : Ctx) (h : CoreCtx) : (k.setCtx x h).vregs = k.vregs := by cases x <;> rfl
theorem CoreS.setCtx_curves (k : CoreS) (x : Ctx) (h : CoreCtx) : (k.setCtx x h).curves = k.curves := by cases x <;> rfl
theorem CoreS.setCtx_mqs (k : CoreS) (x : Ctx) (h : CoreCtx) : (k.setCtx x h).mqs = k.mqs := by cases x <;> rfl

@[simp] theorem State.queue_setQueue_same (s : State) (c : Nat) (x : Ctx) (q : Nat) (l : List QEntry) :
    (s.setQueue c x q l).queue c x q = l := by simp [State.queue, State.setQueue]
theorem State.queue_setQueue_other (s : State) (c : Nat) (x : Ctx) {q q' : Nat} (l : List QEntry) (h : q' ≠ q) :
    (s.setQueue c x q l).queue c x q' = s.queue c x q' := by
  simp only [State.queue, State.setQueue, State.cc_setCc_same]
  exact tget_tput_other _ _ _ _ h
theorem State.queue_setQueue_ctx (s : State) (c : Nat) (x : Ctx) (q q' : Nat) (l : List QEntry) :
    (s.setQueue c x q l).queue c (other x) q' = s.queue c (other x) q' := by
  simp [State.queue, State.setQueue]

@[simp] theorem State.ctr_setCtr_same (s : State) (n : Nat) (c : Ctr) : (s.setCtr n c).ctr n = c := by
  simp [State.ctr, State.setCtr]
theorem State.ctr_setCtr_other (s : State) {n m : Nat} (c : Ctr) (h : m ≠ n) : (s.setCtr n c).ctr m = s.ctr m := by
  simp only [State.ctr, State.setCtr]; exact tget_tput_other _ _ _ _ h

@[simp] theorem State.port_setPort_same (s : State) (n : Nat) (p : Port) : (s.setPort n p).port n = p := by
  simp [State.port, State.setPort]
theorem State.port_setPort_other (s : State) {n m : Nat} (p : Port) (h : m ≠ n) : (s.setPort n p).port m = s.port m := by
  simp only [State.port, State.setPort]; exact tget_tput_other _ _ _ _ h

@[simp] theorem State.chan_setChan_same (s : State) (n : Nat) (c : Chan) : (s.setChan n c).chan n = c := by
  simp [State.chan, State.setChan]
theorem State.chan_setChan_other (s : State) {n m : Nat} (c : Chan) (h : m ≠ n) : (s.setChan n c).chan m = s.chan m := by
  simp only [State.chan, State.setChan]; exact tget_tput_other _ _ _ _ h

@[simp] theorem State.wideGet_wideSet_same (s : State) (b k : Nat) (v : W64) : (s.wideSet b k v).wideGet b k = v.toNat := by
  simp [State.wideGet, State.wideSet]

end Sys2Proof.Machine
end

