-- ==== Sys2Proof/Laws/Memory.lean ====
section
/-! SUPPORT. Sys2Proof/Laws/Memory.lean: what a read of memory gives after a write, and the canonical form that every write
keeps. -/

namespace Sys2Proof.Machine

/-- A write of bytes keeps the canonical form. -/
theorem Memory.wf_cellsPut {m : List Host.Cell} (h : Memory.wf m = true) (a : Nat) (bs : List Byte) :
    Memory.wf (cellsPut m a bs) = true := by
  induction bs generalizing m a with
  | nil => exact h
  | cons b r ih => exact ih (tabWf_tput h a b) (a + 1)

/-- Dropping bytes keeps the canonical form. -/
theorem Memory.wf_filter {m : List Host.Cell} (h : Memory.wf m = true) (p : Host.Cell → Bool) :
    Memory.wf (m.filter p) = true := tabWf_filter h p

/-- The byte at an address after a write. -/
theorem tget_cellsPut (m : List Host.Cell) (a : Nat) (bs : List Byte) (x : Nat) :
    tget 0 (cellsPut m a bs) x = if a ≤ x ∧ x < a + bs.length then bs.getD (x - a) 0 else tget 0 m x := by
  induction bs generalizing m a with
  | nil => rw [cellsPut, if_neg (by simp only [List.length_nil]; omega)]
  | cons b r ih =>
    rw [cellsPut, ih, tget_tput]
    by_cases h1 : x = a
    · subst h1
      rw [if_neg (by omega), if_pos rfl, if_pos (by simp only [List.length_cons]; omega), Nat.sub_self, List.getD_cons_zero]
    · by_cases h2 : a + 1 ≤ x ∧ x < a + 1 + r.length
      · have h3 : a ≤ x ∧ x < a + (b :: r).length := by simp only [List.length_cons]; omega
        have h4 : x - a = (x - (a + 1)) + 1 := by omega
        rw [if_pos h2, if_pos h3, h4]; simp
      · have h3 : ¬ (a ≤ x ∧ x < a + (b :: r).length) := by simp only [List.length_cons]; omega
        rw [if_neg h2, if_neg h3, if_neg h1]

/-- One byte. -/
theorem State.ld_one (s : State) (a : Nat) : s.ld a 1 = [tget 0 s.mem a] := by
  simp [State.ld, cellsGet, upto, List.range_succ]

theorem State.ld_length (s : State) (a n : Nat) : (s.ld a n).length = n := by simp [State.ld, cellsGet, upto]

/-- Two states whose bytes agree over a range read alike there. -/
theorem State.ld_congr {s t : State} {a n : Nat} (h : ∀ k, k < n → tget 0 t.mem (a + k) = tget 0 s.mem (a + k)) :
    t.ld a n = s.ld a n := by
  simp only [State.ld, cellsGet, upto]
  exact List.map_congr_left fun k hk => h k (List.mem_range.1 hk)

/-- A store keeps the canonical form. -/
theorem State.st_wf {s : State} (h : Memory.wf s.mem = true) (a : Nat) (bs : List Byte) :
    Memory.wf (s.st a bs).mem = true := Memory.wf_cellsPut h a bs
theorem State.stPoison_wf {s : State} (h : Memory.wf s.mem = true) (a : Nat) (bs : List Byte) :
    Memory.wf (s.stPoison a bs).mem = true := Memory.wf_cellsPut h a bs
theorem State.stp_wf {s : State} (h : Memory.wf s.mem = true) (a : Nat) (bs : List Byte) (p : Bool) :
    Memory.wf (s.stp a bs p).mem = true := by
  cases p
  · exact s.st_wf h a bs
  · exact s.stPoison_wf h a bs

/-- A byte outside a store is as it was. -/
theorem State.ld_st_other (s : State) (a : Nat) (bs : List Byte) {x : Nat} (h : x < a ∨ a + bs.length ≤ x) :
    (s.st a bs).ld x 1 = s.ld x 1 := by
  rw [State.ld_one, State.ld_one]
  simp only [State.st, tget_cellsPut]
  rw [if_neg (by omega)]

/-- The stored bytes read back. -/
theorem State.ld_st_same (s : State) (a : Nat) (bs : List Byte) : (s.st a bs).ld a bs.length = bs := by
  apply List.ext_getElem
  · simp [State.ld_length]
  · intro k h1 h2
    simp only [State.ld, cellsGet, upto, State.st, List.getElem_map, List.getElem_range, tget_cellsPut]
    rw [if_pos (by omega), Nat.add_sub_cancel_left]
    simp [List.getD, h2]

/-- A store of damaged data stores the bytes all the same. -/
theorem State.stp_mem (s : State) (a : Nat) (bs : List Byte) (p : Bool) : (s.stp a bs p).mem = (s.st a bs).mem := by
  cases p <;> rfl

/-- A store touches memory and its poison alone. -/
theorem State.stp_frame (s : State) (a : Nat) (bs : List Byte) (p : Bool) :
    { s.stp a bs p with mem := s.mem, poison := s.poison } = s := by
  cases p <;> rfl

/-- Damaged data marks every word it touches (R398). -/
theorem State.mem_stPoison (s : State) (a : Nat) (bs : List Byte) (w : Nat) :
    w ∈ (s.stPoison a bs).poison ↔ w ∈ s.poison ∨ w ∈ wordsOf a bs.length := by
  simp only [State.stPoison]
  generalize wordsOf a bs.length = l
  generalize s.poison = p
  induction l generalizing p with
  | nil => simp
  | cons x r ih => simp only [List.foldl_cons, ih, mem_nins, List.mem_cons]; grind

/-- Reset memory lists nothing, in canonical form. -/
theorem Memory.wf_reset : Memory.wf State.reset.mem = true := rfl

end Sys2Proof.Machine
end

