-- ==== Sys2Proof/Laws/Probe.lean ====
section
/-! SUPPORT. Sys2Proof/Laws/Probe.lean: what the checks of detectors do where no injection is armed, and in any case; what a
strobe does once its access reaches its block. -/

namespace Sys2Proof.Machine

/-! ## No injection armed -/

theorem State.armedFor_unarmed {s : State} (h : s.unarmed) (det unit : Nat) (cs : List Nat) (has : Nat → Bool) {n : Nat}
    (hn : n < 16) : s.armedFor det unit cs has n = false := by
  simp [State.armedFor, h n hn]

theorem State.find_unarmed {s : State} (h : s.unarmed) (det unit : Nat) (cs : List Nat) (has : Nat → Bool) :
    (upto 16).find? (s.armedFor det unit cs has) = none := by
  rw [List.find?_eq_none]
  intro n hn
  simp [s.armedFor_unarmed h det unit cs has (List.mem_range.1 hn)]

theorem State.armedSlot_unarmed {s : State} (h : s.unarmed) (det unit : Nat) (cs : List Nat) (a : Nat) :
    s.armedSlot det unit cs a = none := s.find_unarmed h det unit cs _

theorem State.probe_none {s : State} {det unit : Nat} {cs : List Nat} {a : Nat} (h : s.armedSlot det unit cs a = none) :
    s.probe det unit cs a = (none, s) := by simp [State.probe, h]

theorem State.probe_unarmed {s : State} (h : s.unarmed) (det unit : Nat) (cs : List Nat) (a : Nat) :
    s.probe det unit cs a = (none, s) := State.probe_none (s.armedSlot_unarmed h det unit cs a)

theorem State.probeIn_unarmed {s : State} (h : s.unarmed) (det unit : Nat) (cs : List Nat) (a : Nat) (has : Nat → Bool) :
    s.probeIn det unit cs a has = (none, s) := by simp [State.probeIn, s.find_unarmed h]

theorem State.probeAll_unarmed {s : State} (h : s.unarmed) (det unit : Nat) (cs : List Nat) (a : Nat) (has : Nat → Bool)
    (k : Nat) : s.probeAll det unit cs a has k = ([], s) := by
  induction k with
  | zero => rfl
  | succ k ih => simp only [State.probeAll, ih, s.probeIn_unarmed h]

/-- A check finds what is there, and nothing else. -/
theorem State.check_unarmed {s : State} (h : s.unarmed) (det unit : Nat) (cs : List Nat) (a : Nat) (mild : Nat → Bool)
    (real : Option Nat) : s.check det unit cs a mild real = (real, false, s) := by
  simp [State.check, s.probe_unarmed h]

theorem State.gate_unarmed {s : State} (h : s.unarmed) (b : Nat) (bad : Bool) (no : Bool → State → State)
    (yes : State → State) : s.gate b bad no yes = if bad then no false s else yes s := by
  simp only [State.gate, s.check_unarmed h]
  cases bad <;> rfl

theorem encGate_unarmed {s : State} (h : s.unarmed) (o : Nat) (bad : Bool) (yes : State → State) :
    encGate s o bad yes = if bad then reservedWritten s o false else yes s := by
  simp only [encGate, s.check_unarmed h]
  cases bad <;> rfl

theorem lockGate_unarmed {s : State} (h : s.unarmed) (req : Req) (o : Nat) (bad : Bool) (yes : State → State) :
    lockGate s req o bad yes = if bad then lockRefused s req o false else yes s := by
  simp only [lockGate, s.check_unarmed h]
  cases bad <;> rfl

/-! ## In any case -/

/-- A probe leaves the state, or marks one slot's point as fired (R806). -/
theorem State.probe_cases (s : State) (det unit : Nat) (cs : List Nat) (a : Nat) :
    s.probe det unit cs a = (none, s) ∨
    ∃ n, s.probe det unit cs a = (some (bitsOf (s.point n).1.toNat 8 8), s.fired n) := by
  unfold State.probe
  split
  · exact .inl rfl
  · exact .inr ⟨_, rfl⟩

/-- A check leaves the state, or marks one slot's point as fired. -/
theorem State.check_state (s : State) (det unit : Nat) (cs : List Nat) (a : Nat) (mild : Nat → Bool)
    (real : Option Nat) :
    (s.check det unit cs a mild real).2.2 = s ∨ ∃ n, (s.check det unit cs a mild real).2.2 = s.fired n := by
  unfold State.check
  rcases s.probe_cases det unit cs a with h | ⟨n, h⟩ <;> rw [h] <;> cases real
  · exact .inl rfl
  · exact .inl rfl
  · exact .inr ⟨n, rfl⟩
  · exact .inr ⟨n, rfl⟩

/-- A check finds an event that is there. -/
theorem State.check_real (s : State) (det unit : Nat) (cs : List Nat) (a : Nat) (mild : Nat → Bool) (r : Nat) :
    (s.check det unit cs a mild (some r)).1.isSome = true := by
  unfold State.check
  rcases s.probe_cases det unit cs a with h | ⟨n, h⟩ <;> rw [h] <;> rfl

/-- The registers of an injection slot are the only ones a fired point changes. -/
theorem State.rd_fired (s : State) (n : Nat) {o : Nat} (h : o ≠ R.INJSTAT n) : (s.fired n).rd o = s.rd o := by
  unfold State.fired
  rw [State.rd_fset_other _ _ _ (by exact h), State.rd_fset_other _ _ _ (by exact h)]

/-! ## Strobes -/

/-- A strobe whose access reaches its block does what it does. -/
theorem strobe_reaches {s : State} {req : Req} {o : Nat} (h : s.reaches req o) (f : State → State) :
    strobe s req o f = .next (f s) := by
  unfold State.reaches at h
  unfold strobe
  cases e : accessEnds s req o true (some false) with
  | none => rfl
  | some t => rw [e] at h; cases h

theorem enable_reaches {s : State} {req : Req} {f : Fld} (h : s.reaches req f.off) (on : Bool) :
    enable s req f on = .next (s.fset f (if on then 1 else 0)) := strobe_reaches h _

end Sys2Proof.Machine
end

