-- ==== Sys2Proof/Laws/Grew.lean ====
section
/-! SUPPORT. Sys2Proof/Laws/Grew.lean: that shared operations keep the canonical form of memory and lose no fuse. -/

namespace Sys2Proof.Machine

theorem State.grew_refl (s : State) : s.grew s := ⟨id, Nat.le_refl _, Nat.le_refl _⟩

theorem State.grew_trans {s t u : State} (h : s.grew t) (k : t.grew u) : s.grew u :=
  ⟨fun m => k.1 (h.1 m), Nat.le_trans h.2.1 k.2.1, Nat.le_trans h.2.2 k.2.2⟩

/-- What touches neither memory nor fuses. -/
theorem State.grew_of_eq {s t : State} (hm : t.mem = s.mem) (hs : t.sec.fw = s.sec.fw) (hk : t.sec.kg = s.sec.kg) :
    s.grew t := ⟨fun h => hm ▸ h, Nat.le_of_eq hs.symm, Nat.le_of_eq hk.symm⟩

/-- What touches neither memory nor the security state. -/
theorem State.grew_of_sec {s t : State} (hm : t.mem = s.mem) (hs : t.sec = s.sec) : s.grew t :=
  State.grew_of_eq hm (by rw [hs]) (by rw [hs])

theorem State.grew_foldl {α : Type} {f : State → α → State} (h : ∀ (s : State) a, s.grew (f s a)) (l : List α) (s : State) :
    s.grew (l.foldl f s) := by
  induction l generalizing s with
  | nil => exact s.grew_refl
  | cons a r ih => exact State.grew_trans (h s a) (ih _)

theorem State.grew_ite {s t u : State} {p : Prop} [Decidable p] (h : p → s.grew t) (k : ¬ p → s.grew u) :
    s.grew (if p then t else u) := by
  split
  · exact h ‹_›
  · exact k ‹_›

theorem State.grew_wr (s : State) (o : Nat) (v : W32) : s.grew (s.wr o v) := State.grew_of_sec (by simp) (by simp)
theorem State.grew_fset (s : State) (f : Fld) (v : Nat) : s.grew (s.fset f v) := State.grew_of_sec (by simp) (by simp)
theorem State.grew_bumpBy (s : State) (o n : Nat) : s.grew (s.bumpBy o n) := State.grew_of_sec (by simp) (by simp)
theorem State.grew_bump (s : State) (o : Nat) : s.grew (s.bump o) := s.grew_bumpBy o 1
theorem State.grew_clear (s : State) (l : List Nat) : s.grew (s.clear l) := State.grew_foldl (fun s o => s.grew_wr o 0) l s
theorem State.grew_fired (s : State) (n : Nat) : s.grew (s.fired n) := State.grew_of_sec (by simp) (by simp)
theorem State.grew_setCore (s : State) (c : Nat) (k : CoreS) : s.grew (s.setCore c k) := State.grew_of_sec (by simp) (by simp)
theorem State.grew_setCc (s : State) (c : Nat) (x : Ctx) (h : CoreCtx) : s.grew (s.setCc c x h) :=
  State.grew_of_sec (by simp) (by simp)
theorem State.grew_setCtr (s : State) (n : Nat) (c : Ctr) : s.grew (s.setCtr n c) := State.grew_of_sec (by simp) (by simp)
theorem State.grew_setPort (s : State) (n : Nat) (p : Port) : s.grew (s.setPort n p) := State.grew_of_sec (by simp) (by simp)
theorem State.grew_setChan (s : State) (n : Nat) (c : Chan) : s.grew (s.setChan n c) := State.grew_of_sec (by simp) (by simp)
theorem State.grew_setJob (s : State) (x : Ctx) (j : Option Job) : s.grew (s.setJob x j) :=
  State.grew_of_sec (by simp) (by simp)
theorem State.grew_emit (s : State) (o : Output) : s.grew (s.emit o) := State.grew_of_sec (by simp) (by simp)
theorem State.grew_reportFrom (s : State) (cls : Cls) (det unit cause : Nat) (p : Party) (acc addr master : Nat)
    (inj : Bool) : s.grew (s.reportFrom cls det unit cause p acc addr master inj) := State.grew_of_sec (by simp) (by simp)
theorem State.grew_report (s : State) (cls : Cls) (det unit cause : Nat) (p : Party) (acc addr : Nat) :
    s.grew (s.report cls det unit cause p acc addr) := s.grew_reportFrom ..
theorem State.grew_reportOwned (s : State) (det unit cause : Nat) (own : Option Ctx) (acc addr : Nat) :
    s.grew (s.reportOwned det unit cause own acc addr) := s.grew_report ..
theorem State.grew_refusal (s : State) (b : Nat) (inj : Bool) : s.grew (s.refusal b inj) := s.grew_reportFrom ..
theorem State.grew_stp (s : State) (a : Nat) (bs : List Byte) (p : Bool) : s.grew (s.stp a bs p) :=
  ⟨fun h => s.stp_wf h a bs p, by cases p <;> exact Nat.le_refl _, by cases p <;> exact Nat.le_refl _⟩
theorem State.grew_st (s : State) (a : Nat) (bs : List Byte) : s.grew (s.st a bs) := s.grew_stp a bs false

/-- A choice of bytes of memory is kept. -/
theorem State.grew_filter {s t : State} (p : Host.Cell → Bool) (hm : t.mem = s.mem.filter p) (hf : t.sec.fw = s.sec.fw)
    (hk : t.sec.kg = s.sec.kg) : s.grew t :=
  ⟨fun h => hm ▸ Memory.wf_filter h p, Nat.le_of_eq hf.symm, Nat.le_of_eq hk.symm⟩

theorem State.grew_probe (s : State) (det unit : Nat) (cs : List Nat) (a : Nat) : s.grew (s.probe det unit cs a).2 := by
  rcases s.probe_cases det unit cs a with h | ⟨n, h⟩ <;> rw [h]
  · exact s.grew_refl
  · exact s.grew_fired n

theorem State.grew_check (s : State) (det unit : Nat) (cs : List Nat) (a : Nat) (mild : Nat → Bool) (real : Option Nat) :
    s.grew (s.check det unit cs a mild real).2.2 := by
  rcases s.check_state det unit cs a mild real with h | ⟨n, h⟩ <;> rw [h]
  · exact s.grew_refl
  · exact s.grew_fired n

theorem State.grew_gate (s : State) (b : Nat) (bad : Bool) {no : Bool → State → State} {yes : State → State}
    (hn : ∀ i (s : State), s.grew (no i s)) (hy : ∀ s : State, s.grew (yes s)) : s.grew (s.gate b bad no yes) := by
  have h := s.grew_check 0x02 b [1] 0 (fun _ => true) (if bad then some 1 else none)
  unfold State.gate
  generalize s.check 0x02 b [1] 0 (fun _ => true) (if bad then some 1 else none) = r at h ⊢
  exact State.grew_trans h (State.grew_ite (fun _ => hn _ _) fun _ => hy _)

/-- What an access that ends early leaves (R689, R705, R706). -/
theorem grew_regError (s : State) (req : Req) (o cause : Nat) (inj : Bool) : s.grew (regError s req o cause inj) := by
  unfold regError
  refine State.grew_trans ?_ (State.grew_reportFrom _ ..)
  generalize (if cause = 1 then R.REGTO else R.REGERRC) = k
  refine State.grew_trans (s.grew_bump k) ?_
  unfold regFirst
  split
  · exact State.grew_refl _
  · exact State.grew_wr _ _ _

theorem grew_accessEnds {s t : State} {req : Req} {o : Nat} {w : Bool} {part : Option Bool} {late : Bool}
    (h : accessEnds s req o w part late = some t) : s.grew t := by
  unfold accessEnds at h
  split at h
  · cases h; exact State.grew_of_sec rfl rfl
  · have hc := s.grew_check 0x03 (blockNum o) (if part.isSome then [1, 2, 3] else [1, 3]) o (fun _ => true)
      (if !stageReached s o then some 3 else if late then some 1 else if part = some true then some 2 else none)
    dsimp only at h
    generalize (if !stageReached s o then some 3 else if late then some 1 else if part = some true then some 2 else none) = e
      at h hc
    generalize State.check s 0x03 (blockNum o) _ o _ e = r at h hc
    split at h
    · cases h
    · next k _ =>
      cases h
      refine State.grew_trans hc ?_
      refine State.grew_trans (t := regError r.2.2 req o k r.2.1) (grew_regError ..) ?_
      exact State.grew_ite (fun _ => State.grew_refl _) fun _ => State.grew_of_sec rfl rfl

/-- A strobe keeps what its effect keeps. -/
theorem grew_strobe {s t : State} {req : Req} {o : Nat} {f : State → State} (hf : ∀ s : State, s.grew (f s))
    (h : strobe s req o f = .next t) : s.grew t := by
  unfold strobe at h
  split at h
  · next e => cases h; exact grew_accessEnds e
  · cases h; exact hf s

/-- An event's report (R774, R806). -/
theorem grew_eventReport (s : State) (cls : Cls) (det unit cause : Nat) (p : Party) (acc : Nat) :
    s.grew (eventReport s cls det unit cause p acc) := State.grew_trans (s.grew_probe ..) (State.grew_reportFrom _ ..)

/-- Time: clocks, waiters and idle counters. -/
theorem grew_idleAdd (s : State) (c : Nat) (x : Ctx) (k n : Nat) : s.grew (idleAdd s c x k n) := by
  unfold idleAdd
  refine State.grew_ite (fun _ => s.grew_setCc ..) fun _ => State.grew_trans (s.grew_setCc ..) (State.grew_fset _ _ _)

theorem grew_ageAll (s : State) (dt : Nat) : s.grew (ageAll s dt) :=
  State.grew_foldl (fun s c => State.grew_trans (s.grew_setCc c .d _) (State.grew_setCc _ c .t _)) _ s

theorem grew_chargeCore (s : State) (x : Ctx) (dt : Nat) (t : State) (c n : Nat) : t.grew (chargeCore s x dt t c n) := by
  unfold chargeCore
  refine State.grew_ite (fun _ => ?_) fun _ => grew_idleAdd ..
  have h : ∀ a : Nat, t.grew (if a = 0 then t else idleAdd t c x 2 a) := fun a =>
    State.grew_ite (fun _ => t.grew_refl) fun _ => grew_idleAdd ..
  exact State.grew_ite (fun _ => h _) fun _ => State.grew_trans (h _) (grew_idleAdd ..)

theorem grew_chargeIdle (s t : State) (dt : Nat) : t.grew (chargeIdle s t dt) := by
  unfold chargeIdle
  split
  · exact t.grew_refl
  · split
    · exact t.grew_refl
    · refine State.grew_foldl (fun t c => ?_) _ t
      exact State.grew_ite (fun _ => t.grew_refl) fun _ => grew_chargeCore ..

/-- The power state of an engine (R184 to R191). -/
theorem grew_setPstate (s : State) (c e st step : Nat) : s.grew (setPstate s c e st step) :=
  State.grew_trans (s.grew_fset _ _) (State.grew_fset _ _ _)

theorem grew_enterDummy (s : State) (c e : Nat) : s.grew (enterDummy s c e) := by
  unfold enterDummy
  refine State.grew_ite (fun _ => ?_) fun _ => ?_
  · unfold enterRampdown
    refine State.grew_trans (t := latchPwr s c e (pwrRestart s c e)) (s.grew_setCore ..) ?_
    exact State.grew_ite (fun _ => grew_setPstate ..) fun _ => grew_setPstate ..
  · refine State.grew_trans ?_ (State.grew_setCore _ _ _)
    refine State.grew_trans ?_ (grew_setPstate ..)
    exact State.grew_trans (s.grew_setCore ..) (State.grew_bump _ _)

theorem grew_pwrSettle (s : State) (c e : Nat) : s.grew (pwrSettle s c e) :=
  State.grew_ite (fun _ => grew_enterDummy ..) fun _ => s.grew_refl

theorem grew_settleEngines (s : State) : s.grew (settleEngines s) :=
  State.grew_foldl (fun s c => State.grew_trans (grew_pwrSettle s c 0) (grew_pwrSettle _ c 1)) _ s

theorem grew_elapse (s : State) (dt : Nat) : s.grew (elapse s dt) := by
  unfold elapse
  split
  · exact s.grew_refl
  · refine State.grew_trans (grew_settleEngines s) ?_
    refine State.grew_trans (t := noteTold (settleEngines s)) (State.grew_of_eq rfl rfl rfl) ?_
    refine State.grew_trans ?_ (grew_ageAll _ dt)
    refine State.grew_trans ?_ (grew_chargeIdle _ _ dt)
    exact State.grew_ite (fun _ => State.grew_of_sec rfl rfl) fun _ => State.grew_of_sec rfl rfl

theorem grew_pullTo (s : State) (t : Nat) : s.grew (pullTo s t) :=
  State.grew_ite (fun _ => grew_elapse ..) fun _ => s.grew_refl

end Sys2Proof.Machine
end

