-- ==== Sys2Proof/WellFormed.lean ====
section
/-! DEFINITION. Sys2Proof/WellFormed.lean: the operands that a sender can give a command. -/

namespace Sys2Proof

/-- R591: a flit carries 240 payload bytes. -/
def flitLen (f : FlitIn) : Bool := decide (f.payload.length = 240)
/-- An offset of a 32-bit register in BAR0 (R699). -/
def offOk (off : Nat) : Bool := decide (off < 2 ^ 26) && decide (off % 4 = 0)
/-- R797: a core, a DMA channel or an Ibcia port. -/
def partyOk (kind idx : Nat) : Bool := decide (idx < (if kind = 0 then 128 else if kind = 1 then 96 else 24))
/-- An offset of a doubleword of configuration space (R687). -/
def cfgOk : CfgReq → Bool
  | .read off | .write off _ => decide (off < 4096) && decide (off % 4 = 0)
  | .power _ | .msix _ _ | .bar2Size _ => true

/-- The command's operands are within their ranges. -/
def Instr.wf : Instr → Bool
  | .instructionOverTime _ _ finished => decide (finished ≤ 4096)
  | .cacheFillComplete _ line => decide (line < 2 ^ 27)
  | .scrubPatrol _ addr found => decide (addr < 2 ^ 44) && decide (found ≤ 2)
  | .bar2Read _ len => decide (1 ≤ len) && decide (len ≤ 4096)
  | .bar2Write _ data => decide (1 ≤ data.length) && decide (data.length ≤ 4096)
  | .lotteryDecision _ reqs => reqs.all fun r => decide (r.input < 256)
  | .burstBoundary _ sched waiting => (sched ++ waiting).all fun i => decide (i < 256)
  | .backoffExpiry _ input => decide (input < 256)
  | .linkFlit _ f => flitLen f
  | .writeFlit _ f => flitLen f
  | .readFlit _ f => flitLen f
  | .rdataFlit _ f => flitLen f
  | .msgFlit _ f => flitLen f
  | .ctrFlit _ f => flitLen f
  | .ackFlit _ f => flitLen f
  | .errFlit _ f => flitLen f
  | .mcwriteFlit _ f => flitLen f
  | .redFlit _ f => flitLen f
  | .mgmtFlit _ f => flitLen f
  | .trainingFrame _ f => decide (1 ≤ f.genMax.val) && decide (f.genMax.val ≤ 2) && decide (f.peerPort.val < 24)
  | .configRequest r => cfgOk r
  | .bar4MessageWrite _ _ words => decide (1 ≤ words.length) && decide (words.length ≤ 32)
  | .bar4BadWrite off data => decide (off + data.length ≤ 2 ^ 25) && !data.isEmpty
  | .registerWrite _ off _ _ => offOk off
  | .registerAccessTimeout _ off _ => offOk off
  | .mailboxRead _ off _ => offOk off
  | .mailboxWrite _ off _ => offOk off
  | .mailboxTimeout _ off => offOk off
  | .pllLockTimeout pll => decide (0x10 ≤ pll) && decide (pll ≤ 0x14)
  | .getVersion data => decide (4 ≤ data.length)
  | .getCapabilities data => decide (4 ≤ data.length)
  | .negotiateAlgorithms data => decide (4 ≤ data.length)
  | .getDigests data => decide (4 ≤ data.length)
  | .getCertificate data => decide (4 ≤ data.length)
  | .challenge data => decide (4 ≤ data.length)
  | .getMeasurements data => decide (4 ≤ data.length)
  | .vendorDefinedRequest data => decide (4 ≤ data.length)
  | .chunkSend data => decide (4 ≤ data.length)
  | .chunkGet data => decide (4 ≤ data.length)
  | .spdmUnsupported data => decide (4 ≤ data.length)
  | .flashErase _ addr => decide (addr < 2 ^ 27)
  | .flashProgram _ addr => decide (addr < 2 ^ 27)
  | .drainTimeout kind idx => partyOk kind.val idx
  | .reclaim kind idx => partyOk kind.val idx
  | .reclaimTimeout kind idx => partyOk kind.val idx
  | .lockTamper _ unit => decide (unit < 256)
  | .thermalSample sensors => decide (sensors.length = 98)
  | .thermalTrip sensor => decide (sensor < 88)
  | .railFault rail cause => decide (rail ≤ 0x0B) && decide (1 ≤ cause) && decide (cause ≤ 3)
  | .clockLoss clk => decide (0x10 ≤ clk) && decide (clk ≤ 0x15)
  | .sbMailboxFrame data => decide (1 ≤ data.length)
  | .sbRegisterRead data => decide (1 ≤ data.length)
  | .sbRegisterWrite data => decide (1 ≤ data.length)
  | .sbReservedFrame data => decide (1 ≤ data.length)
  | .setdasa addr => decide (addr ≤ 127)
  | .roundBoundary | .roundInEdge _ | .missedEdge | .roundOutPulse | .windowBoundary | .switchComplete _
  | .flowRealignT _ | .roundsStart _ | .roundsStop _ | .rndctlClrcnt _ | .dovrRelease _ | .weave _ _ | .unload _ _
  | .instructionRetire _ _ | .rampdownStart _ _ | .rampStep _ _ | .wvctlEnable _ _ _ _ | .wvctlAbort _ _ _
  | .wvctlClrcnt _ _ _ | .wvcfgLock _ _ _ | .wvdbgdatRead _ _ _ | .vMov _ | .vAdd _ | .vSub _ | .vMul _ | .vFma _
  | .vMin _ | .vMax _ | .vAbs _ | .vNeg _ | .vCmpeq _ | .vCmpne _ | .vCmplt _ | .vCmple _ | .vSel _ | .vRcp _
  | .vRsqrt _ | .vCurve _ | .vCgrad _ | .vDrop _ | .vCvt _ | .vSum _ | .vMaxr _ | .vMinr _ | .vSumsq _ | .vMoments _
  | .vMcomb _ | .vTopk _ | .vCrvld _ | .vRseed _ | .vRsave _ | .vRload _ | .vuctlEnable _ _ _ | .vuctlAbort _ _
  | .vuctlClrcnt _ _ | .hartInstruction _ _ | .ecall _ _ | .ebreak _ _ | .wfi _ _ | .wfiWake _ _ | .qpush _ _ _ _ _
  | .qpushResume _ _ | .qpushnb _ _ _ _ _ _ | .qcred _ _ _ _ | .cpop _ _ _ | .mpop _ _ _ _ | .xflagRead _ _ _
  | .xflagClear _ _ _ _ | .xfence _ _ _ | .xfenceRelease _ _ | .scrd _ _ _ _ | .scadd _ _ _ _ | .scset _ _ _ _
  | .scwait _ _ _ _ _ | .scwaitRelease _ _ | .xbar _ _ _ _ | .fastBarrierRelease _ _ | .cpctlEnable _ _ _
  | .cpctlHalt _ _ _ | .cpctlResume _ _ _ | .cpctlStep _ _ _ | .cpctlAbort _ _ _ | .cpctlClrcnt _ _
  | .cpctlDbglock _ _ | .snop _ | .sadd _ | .sset _ | .sbar _ | .cnop _ | .wend _ | .cdrain _ | .movet _ | .mover _
  | .wstore _ | .wmsg _ | .dmago _ | .cictlClrcnt _ _ | .waitTimeout _ _ _ | .jlctlGo _ | .loadDone | .jlctlUnload _
  | .unloadDrained | .scctlRelease _ _ _ | .scctlFlush _ _ | .scctlClrcnt _ _ | .memctlClrcnt _ | .scrubRewrite _
  | .cxlLinkFailure _ | .withyMessageDelivery | .withyStoreDelivery | .withyErrorReturn | .scntvalWrite _ _ _
  | .snctlClrcnt _ _ | .mqctlClrcnt _ _ | .dmactlGo _ _ | .dmactlAbort _ _ | .dmactlEnable _ _ _ | .dmactlClrcnt _ _
  | .dmaListStart _ | .dmaEntryFetch _ | .dmaBurst _ | .dmaWriteComplete _ | .arbseedWrite _ _ _ | .arbcfgClrcnt _ _
  | .wyctlClrcnt _ _ | .stepTrigger | .stepCommit | .voteTimeout | .stepctlEnable _ _ | .stepctlClrcnt _
  | .batchComplete | .recordDelivery | .idigComplete | .sealWrite | .headSigning | .signedEntryWrite | .ledctlSignow _
  | .ledctlResume _ | .ledctlEnable _ _ | .ledctlClrcnt _ | .nakRepeat _ | .replayRelease _ | .remoteTimeout
  | .trainingLimitExpiry _ | .codewordLockLoss _ | .epochHoldRelease | .rtctlArm _ | .rtctlClrcnt _
  | .rtdataAccess _ _ | .epcfgLock _ | .lnkctlRetrain _ _ | .lnkctlEnable _ _ _ | .lnkctlClrcnt _ _
  | .localSendStart _ | .localSendSent | .reductionCutoff _ _ | .rootClose _ _ | .returnClose _ | .returnStale _
  | .colctlEnable _ _ | .colctlAbort _ | .colctlClrcnt _ | .grpdataAccess _ _ _ | .idlctlClear _ _ _
  | .idleCounterWrap _ _ _ | .counterDoorbell _ _ | .msixUnmask _ | .updstbFire _ _ | .updstbArm _ _ | .regctlClrcnt _
  | .functionLevelReset | .perstAssert | .auxGood | .auxLoss | .input54vGood | .input54vLoss | .siding
  | .stageBoundExpiry | .getid _ | .getstage _ | .getcap _ | .getmeas _ | .getcert _ | .setepbase _ | .rbcommit _
  | .warmrst _ | .companionSignatureReady | .flashOpComplete _ | .faultReport | .collectorSilent _ | .autoWarmReset
  | .fhfncGo _ _ _ | .fhctlClrcnt _ | .fhfirstClear _ _ | .fhcontClear _ _ | .tlctlOpen _ _ | .tlctlLock _
  | .injctlArm _ _ | .injctlDisarm _ _ | .powerSample _ | .powerCapInterval | .vfRiseStep _ | .brakeEngage
  | .brakeRelease | .brakeHoldExpiry | .linkRefClockDetect | .sbResponseRead | .rstdaa | .input54vNearLimit
  | .linkRefClockReturn | .flitBoundary _ | .cxlLinkUp _ _ _ _ | .hostLinkUp _ _ _ | .perstDeassert
  | .coreTestRequest _ => true

end Sys2Proof
end

