-- ==== Sys2Proof/Tests/Slice0.lean ====
section
/-! SUPPORT. Sys2Proof/Tests/Slice0.lean: the ill-formed terms that WellFormed refuses, states that meet the hypotheses of
the obligations, and single commands against values from the spec. -/

namespace Sys2Proof.Tests
open Sys2Proof.Machine

/- One theorem at a time: the kernel evaluations below would otherwise run together, each on a stack of its own. -/
set_option Elab.async false

/-! ## Terms that WellFormed refuses -/

/-- A flit with one payload byte too few (R591). -/
def shortFlit : FlitIn := ⟨0, List.replicate 239 0, false, 0, 0⟩
/-- One operand out of its range each. -/
theorem test_ill_formed_refused : ∀ i ∈ [
    Instr.instructionOverTime 0 0 4097, .cacheFillComplete 0 (2 ^ 27), .scrubPatrol 0 (2 ^ 44) 0, .scrubPatrol 0 0 3,
    .bar2Read 0 0, .bar2Read 0 4097, .bar2Write 0 [],
    .lotteryDecision 0 [⟨256, .hostBar⟩], .burstBoundary 0 [256] [], .burstBoundary 0 [] [256], .backoffExpiry 0 256,
    .trainingFrame 0 ⟨0, false, 0, 0, 0⟩, .trainingFrame 0 ⟨0, false, 3, 0, 0⟩, .trainingFrame 0 ⟨0, false, 1, 0, 24⟩,
    .configRequest (.read 2), .configRequest (.write 4096 0), .bar4MessageWrite 0 0 [],
    .bar4MessageWrite 0 0 (List.replicate 33 0), .bar4BadWrite (2 ^ 25) [some 0], .bar4BadWrite 0 []], i.wf = false := by
  decide
theorem test_ill_formed_offsets_refused : ∀ i ∈ [
    Instr.registerWrite .host 2 0 15, .registerWrite .host (2 ^ 26) 0 15, .registerAccessTimeout .host 1 true,
    .mailboxRead .host 1 0, .mailboxWrite .host 1 0, .mailboxTimeout .host 1], i.wf = false := by decide
theorem test_ill_formed_start_refused : ∀ i ∈ [
    Instr.pllLockTimeout 0x0F, .pllLockTimeout 0x15, .getVersion [0, 0, 0], .getCapabilities [], .negotiateAlgorithms [],
    .getDigests [], .getCertificate [], .challenge [], .getMeasurements [], .vendorDefinedRequest [], .chunkSend [],
    .chunkGet [], .spdmUnsupported [], .flashErase .host (2 ^ 27), .flashProgram .host (2 ^ 27)], i.wf = false := by decide
theorem test_ill_formed_faults_refused : ∀ i ∈ [
    Instr.drainTimeout 0 128, .reclaim 1 96, .reclaimTimeout 2 24, .lockTamper 0 256, .thermalSample [],
    .thermalTrip 88, .railFault 0x0C 1, .railFault 0 0, .railFault 0 4, .clockLoss 0x0F, .clockLoss 0x16,
    .sbMailboxFrame [], .sbRegisterRead [], .sbRegisterWrite [], .sbReservedFrame [], .setdasa 128], i.wf = false := by
  decide
set_option maxRecDepth 8192 in
theorem test_short_flit_refused : ∀ i ∈ [Instr.linkFlit 0 shortFlit, .writeFlit 0 shortFlit, .readFlit 0 shortFlit,
    .rdataFlit 0 shortFlit, .msgFlit 0 shortFlit, .ctrFlit 0 shortFlit, .ackFlit 0 shortFlit, .errFlit 0 shortFlit,
    .mcwriteFlit 0 shortFlit, .redFlit 0 shortFlit, .mgmtFlit 0 shortFlit], i.wf = false := by decide
/-- The table gives no row any bits, so no word spells a command. -/
theorem test_no_word_spells_a_command : decodeTableWord 0 0 = none ∧ decodeTableWord 32 7 = none := by decide

/-! ## States -/

/-- The module after Siding: supplies good, the link reference clock present, stage 3. -/
def up : State :=
  ({ State.reset with
      sec := { base := true, in54 := true, begun := true }
      clk := { present := true, started := true, tenths := 1000, base := 0 } } : State).fset R.STAGESTAT_STAGE 3
/-- A job on core 0 with slots, a message queue, a sync counter, a fast-barrier range and a DMA channel. -/
def job0 : Job :=
  { seed := 0, seedIdx := 0, started := true
    recs := [⟨0x03, 0, 0, 0⟩, ⟨0x18, 0, 0x00040004, 0⟩, ⟨0x19, 0, 0x100, 0⟩, ⟨0x30, 0, 0x10001, 0⟩] }
/-- Context D loaded on core 0, its hart running, counter 5 its own. -/
def run0 : State :=
  let s := (up.fset (R.CPCTL_ENABLE 0) 1).setCtr 5 { owner := some .d }
  ({ s with jobD := some job0 } : State).setCc 0 .d { hst := .running, pc := 0x100 }
/-- `run0` with its hart changed. -/
def hart0 (f : CoreCtx → CoreCtx) : State := run0.setCc 0 .d (f (run0.cc 0 .d))
/-- `run0` with two of its hart's registers. -/
def regs0 (a b : W64) : State := hart0 fun k => { k with xs := tput 0 (tput 0 k.xs 1 a) 2 b }

theorem witness_up_unarmed : up.unarmed := by unfold State.unarmed; decide
theorem witness_run0_unarmed : run0.unarmed := by unfold State.unarmed; decide
theorem witness_run0_takes : run0.takes 0 .d := by unfold State.takes; decide

/-! ## Hypotheses that can be met: the queue, the invariant, registers and counters -/

theorem witness_step_takes_front :
    ({ up with pending := [.auxGood, .siding] } : State).pending = Instr.auxGood :: [.siding] := by decide
theorem witness_idle : State.reset.pending = [] ∧ State.reset.clk.present = false ∧ up.pending = [] ∧ up.clk.present = true := by
  decide
theorem witness_step_next : ∃ t, step State.reset = .next t := ⟨State.reset, rfl⟩
theorem witness_field_write : (R.RNDPER_PERIOD).lo + (R.RNDPER_PERIOD).w ≤ 32 ∧
    ((R.RNDSYNC_GUARD).lo + (R.RNDSYNC_GUARD).w ≤ (R.RNDSYNC_MISSLIM).lo) := by decide
/-- Each offset of a block's control register, at the last block of its kind. -/
theorem witness_clear_counters : ∀ o ∈ [R.WVCTL 127 1, R.VUCTL 127, R.CPCTL 127, R.CICTL 127, R.SNCTL 3, R.MQCTL 127,
    R.RNDCTL, R.SCCTL 7, R.MEMCTL, R.DMACTL 95, R.ARBCFG 137, R.WYCTL 127, R.FHCTL, R.STEPCTL, R.LEDCTL, R.RTCTL,
    R.LNKCTL 23, R.COLCTL, R.REGCTL], up.reaches .host o := by unfold State.reaches; decide

/-! ## Harts and their instructions -/

theorem witness_halt : 0xFF < 256 ∧ 7 < 8 := by decide
theorem witness_ecall : run0.takes 0 .d ∧ run0.unarmed ∧ run0.fbit (R.CPCTL_DBGEN 0) = false ∧
    (run0.fset (R.CPCTL_DBGEN 0) 1).takes 0 .d ∧ (run0.fset (R.CPCTL_DBGEN 0) 1).unarmed ∧
    (run0.fset (R.CPCTL_DBGEN 0) 1).fbit (R.CPCTL_DBGEN 0) = true := by
  unfold State.takes State.unarmed; decide
/-- Counter 5 named by x1, message slot 1 by x1 with two slots for context D. -/
theorem witness_xweave_results :
    let s := regs0 5 0xFF
    let m := (regs0 1 0).fset (R.MQCFG_NMQD 0) 2
    (s.takes 0 .d ∧ (s.cc 0 .d).stepping = false ∧ s.unarmed ∧ ownsCtr s .d (low14 (s.xreg 0 .d 1)) = true) ∧
    m.takes 0 .d ∧ (m.cc 0 .d).stepping = false ∧ m.unarmed ∧ mqPhys m 0 .d ((m.xreg 0 .d 1).toNat % 16) = some 1 := by
  unfold State.takes State.unarmed; decide
/-- A SADD word for queue 5: class 5 in bits 127 to 125. -/
def saddHi : W64 := BitVec.ofNat 64 (5 * 2 ^ 61 + 2 ^ 55)
theorem witness_queue_pushes :
    let free := (regs0 0 saddHi).fset (R.QCFG_CREDD 0 5) 1
    let full := free.setCc 0 .d { free.cc 0 .d with queues := [(5, [⟨0, 0, false⟩])] }
    let wait := free.setCc 0 .d { free.cc 0 .d with stall := .qpush 5 1 }
    (free.takes 0 .d ∧ free.unarmed ∧ (free.cc 0 .d).stepping = false ∧ classFits (wordOf (free.xreg 0 .d 1) (free.xreg 0 .d 2)) 5 = true ∧
      freeCredits free 0 .d 5 = 1) ∧
    (full.takes 0 .d ∧ full.unarmed ∧ (full.cc 0 .d).stepping = false ∧ classFits (wordOf (full.xreg 0 .d 1) (full.xreg 0 .d 2)) 5 = true ∧
      freeCredits full 0 .d 5 = 0) ∧
    (wait.cc 0 .d).stall = .qpush 5 1 ∧ 0 < freeCredits wait 0 .d 5 ∧ wait.stopped = false ∧ wait.fencedSv 0 = false := by
  unfold State.takes State.unarmed; decide
theorem witness_wrong_class : (regs0 0 saddHi).takes 0 .d ∧ (regs0 0 saddHi).unarmed ∧
    classFits (wordOf ((regs0 0 saddHi).xreg 0 .d 1) ((regs0 0 saddHi).xreg 0 .d 2)) 4 = false ∧
    classOf (BitVec.ofNat 128 (7 * 2 ^ 125)) = 7 := by unfold State.takes State.unarmed; decide
/-- An entry older than the fence in queue 5 holds it; a counter at 4 against the threshold 5. -/
theorem witness_blocking :
    let s := regs0 5 5
    let q := s.setCc 0 .d { s.cc 0 .d with queues := [(5, [⟨0, 0, false⟩])], nextSeq := 1 }
    let c4 := s.setCtr 5 { owner := some .d, val := 4 }
    let c5 := s.setCtr 5 { owner := some .d, val := 5 }
    (s.takes 0 .d ∧ s.unarmed ∧ fenceDone s 0 .d 63 (s.cc 0 .d).nextSeq = true) ∧
    (q.takes 0 .d ∧ q.unarmed ∧ fenceDone q 0 .d 32 (q.cc 0 .d).nextSeq = false) ∧
    (c4.takes 0 .d ∧ ownsCtr c4 .d (low14 (c4.xreg 0 .d 1)) = true ∧
      (c4.ctr (low14 (c4.xreg 0 .d 1))).met ((c4.xreg 0 .d 2).setWidth 32).toNat = false) ∧
    (c5.takes 0 .d ∧ (c5.ctr (low14 (c5.xreg 0 .d 1))).met ((c5.xreg 0 .d 2).setWidth 32).toNat = true) := by
  unfold State.takes State.unarmed; decide
theorem witness_blocking_releases :
    let x := hart0 fun k => { k with stall := .xfence 32 0 }
    let w := (hart0 fun k => { k with stall := .scwait 3 5 0 })
    let i := hart0 fun k => { k with stall := .wfi 0 true }
    let j := hart0 fun k => { k with stall := .wfi 0 false }
    ((x.cc 0 .d).stall = .xfence 32 0 ∧ fenceDone x 0 .d 32 0 = true ∧ x.stopped = false ∧ x.fencedSv 0 = false) ∧
    ((w.cc 0 .d).stall = .scwait 3 5 0 ∧ (w.ctr 5).met (0 : W32).toNat = true ∧ w.stopped = false ∧ w.fencedSv 0 = false) ∧
    ((i.cc 0 .d).stall = .wfi 0 true ∧ i.fbit (R.CPCTL_ENABLE 0) = true ∧ i.stopped = false ∧ i.fencedSv 0 = false) ∧
    ((j.cc 0 .d).stall = .wfi 0 false ∧ j.fbit (R.CPCTL_ENABLE 0) = true ∧ j.fencedSv 0 = false ∧
      j.clk.present = true) := by decide
/-- `run0` with a word of code at its pc and its last doubleword of data memory named by x1. -/
def code0 (w : Nat) : State :=
  hart0 fun k => { k with imem := cellsPut [] 0x100 (leBytes 4 w), xs := tput 0 (tput 0 k.xs 1 (BitVec.ofNat 64 (dmBase + 0x3FF8))) 2 7 }
theorem witness_scalar : ∀ w ∈ [encR 0x33 0 0 3 1 2, encR 0x33 0 0x20 3 1 2, encI 0x13 0 3 1 (-2048), encI 0x13 0 3 1 2047,
    encJ 1 (-1048576), encJ 1 1048574, encB 0 1 2 (-4096), encB 0 1 2 4094, encI 0x03 3 3 1 0, encS 0x23 3 1 2 0, 0x30200073],
    (code0 w).takes 0 .d ∧ ((code0 w).cc 0 .d).stepping = false ∧ inIm (code0 w) 0 .d 0x100 4 = true ∧
    scalarBytes (code0 w) 0 .d 0x100 4 = leBytes 4 w := by unfold State.takes; decide
theorem witness_scalar_data : (code0 0).unarmed ∧
    (((code0 0).xreg 0 .d 1) + BitVec.ofInt 64 0).toNat % 8 = 0 ∧
    inDm (code0 0) 0 .d (((code0 0).xreg 0 .d 1) + BitVec.ofInt 64 0).toNat 8 = true := by unfold State.unarmed; decide

/-! ## Counters, barriers, enables and debug mode -/

/-- Counter 5 of context D with a value and a mode. -/
def ctr5 (val : W32) (mode : Nat) : State := (regs0 5 1).setCtr 5 { owner := some .d, val := val, mode := mode }
/-- Plain counters at the ends of the range, and a saturating one past each end. -/
theorem witness_counter_adds : ∀ p ∈ [((0xFFFFFFFE : W32), 0, (1 : W32)), (0, 0, 0), (0, 0, 0xFFFFFFFF), (0xFFFFFFFF, 0, 1),
    (0, 1, 0xFFFFFFFF), (0xFFFFFFFF, 1, 1)], (ctr5 p.1 p.2.1).unarmed ∧
    ((ctr5 p.1 p.2.1).ctr 5).owner = some .d ∧ ((ctr5 p.1 p.2.1).ctr 5).bad = false ∧
    ((ctr5 p.1 p.2.1).ctr 5).mode = p.2.1 ∧ bar4Up (ctr5 p.1 p.2.1) = true := by unfold State.unarmed; decide
theorem witness_counter_ranges :
    (0 ≤ ((0xFFFFFFFE : W32).toNat : Int) + (1 : W32).toInt ∧ ((0xFFFFFFFE : W32).toNat : Int) + (1 : W32).toInt < 2 ^ 32) ∧
    ((0 : W32).toNat : Int) + (0xFFFFFFFF : W32).toInt < 0 ∧ 2 ^ 32 ≤ ((0xFFFFFFFF : W32).toNat : Int) + (1 : W32).toInt := by
  decide
theorem witness_counter_add_by_hart : (ctr5 0 0).takes 0 .d ∧ ((ctr5 0 0).cc 0 .d).stepping = false ∧
    low14 ((ctr5 0 0).xreg 0 .d 1) = (5 : CtrId).val ∧ ((ctr5 0 0).xreg 0 .d 2).setWidth 32 = (1 : W32) := by
  unfold State.takes; decide
theorem witness_counter_sets :
    let f := (ctr5 0 3).setCtr 5 { mode := 3 }
    ((ctr5 0 3).takes 0 .d ∧ ((ctr5 0 3).cc 0 .d).stepping = false ∧ ((ctr5 0 3).ctr 5).owner = some .d ∧
      low14 ((ctr5 0 3).xreg 0 .d 1) = (5 : CtrId).val) ∧
    ((ctr5 0 3).reaches .host (R.SCNTVAL 0 5) ∧ up.reaches .host (R.SCNTVAL 3 4095) ∧ (up.ctr 16383).owner = none) ∧
    f.takes 0 .d ∧ low14 (f.xreg 0 .d 1) = (5 : CtrId).val ∧ (f.ctr 5).owner ≠ some .d := by
  unfold State.takes State.reaches; decide
/-- Counter 5 as a barrier of `npart` parties: its count, its arrivals and its early arrivals. -/
def bar5 (npart count arrived early : Nat) : State :=
  run0.setCtr 5 { owner := some .d, mode := 3, val := barVal 0 count, npart := npart, arrived := arrived, early := early }
set_option maxRecDepth 8192 in
/-- Whatever party arrives: a fresh barrier of 2 and of 1, the last arrival of 2 without and with an early one, a second
arrival of core 0, and mismatches. -/
theorem witness_barrier_arrival :
    let ok (s : State) := (s.ctr 5).owner = some Ctx.d ∧ (s.ctr 5).bad = false ∧ (s.ctr 5).mode = 3 ∧ (s.ctr 5).count < 128
    (ok (bar5 0 0 0 0) ∧ (bar5 0 0 0 0).unarmed ∧ ((bar5 0 0 0 0).ctr 5).count = 0 ∧ ((bar5 0 0 0 0).ctr 5).early = 0 ∧
      bitOf ((bar5 0 0 0 0).ctr 5).arrived 0 = false ∧ ((bar5 0 0 0 0).ctr 5).count + 1 < 2) ∧
    (ok (bar5 2 1 1 0) ∧ bitOf ((bar5 2 1 1 0).ctr 5).arrived 1 = false ∧ ((bar5 2 1 1 0).ctr 5).count + 1 = 2 ∧
      ((bar5 2 1 1 0).ctr 5).early = 0) ∧
    (ok (bar5 2 1 1 1) ∧ 0 < popcount 128 ((bar5 2 1 1 1).ctr 5).early ∧ popcount 128 ((bar5 2 1 1 1).ctr 5).early < 2) ∧
    (ok (bar5 2 1 1 0) ∧ bitOf ((bar5 2 1 1 0).ctr 5).arrived 0 = true ∧ ((bar5 2 1 1 0).ctr 5).count < 2 ∧
      bitOf ((bar5 2 1 1 0).ctr 5).early 0 = false) ∧
    (ok (bar5 2 1 1 1) ∧ bitOf ((bar5 2 1 1 1).ctr 5).arrived 0 = true ∧ bitOf ((bar5 2 1 1 1).ctr 5).early 0 = true) ∧
    (3 : Nat) ≠ ((bar5 2 1 1 0).ctr 5).npart := by unfold State.unarmed; decide
/-- Core 0 owns slot 0 of its cluster when context D has one; a mask of one core, of two, and a second arrival. -/
theorem witness_fast_barriers :
    let s := (regs0 0 3).fset (R.FBCFG_DCNT 0) 1
    let m := (regs0 0 2).fset (R.FBCFG_DCNT 0) 1
    let r : State := { run0 with fb := tput {} [] 0 { gen := 1, release := 1, mask := 1 } }
    let r := r.setCc 0 .d { r.cc 0 .d with stall := .xbar 0 1 }
    ((regs0 0 3).takes 0 .d ∧ (regs0 0 3).unarmed ∧ fbOwns (regs0 0 3) 0 .d 0 = false) ∧
    (s.takes 0 .d ∧ s.unarmed ∧ fbOwns s 0 .d 0 = true ∧ (tget {} s.fb 0 : FbSlot).arrive 0 3 = some { mask := 3, arrived := 1 }) ∧
    (m.takes 0 .d ∧ m.unarmed ∧ fbOwns m 0 .d 0 = true ∧ (tget {} m.fb 0 : FbSlot).arrive 0 2 = none) ∧
    (bitOf 8 3 = true ∧ bitOf 9 3 = true ∧ ({ mask := 9, arrived := 8 } : FbSlot).release = 0) ∧
    (let f : FbSlot := { gen := 1, release := 1, mask := 1 }
     f.release ≠ 0 ∧ f.early = 0 ∧ bitOf f.release 1 = false) ∧
    (r.stopped = false ∧ r.fencedSv (0 * 4 + 0) = false ∧ (tget {} r.fb (0 * 16 + 0) : FbSlot).release ≠ 0 ∧
      bitOf (tget {} r.fb (0 * 16 + 0) : FbSlot).release 0 = true ∧ (r.cc 0 .d).stall = .xbar 0 1 ∧
      (r.cc 0 .d).stepping = false) := by unfold State.takes State.unarmed; decide
/-- A slot of cores 0 to 2 that waits for one and for two more, and one in release with and without early arrivals. -/
theorem witness_fast_barrier_slots :
    (∀ f ∈ [({ mask := 7, arrived := 1 } : FbSlot), { mask := 7, arrived := 5 }], f.release = 0 ∧ f.arrived ≠ 0 ∧ f.mask = 7 ∧
      bitOf f.arrived 1 = false ∧ bitOf f.arrived 0 = true) ∧ (1 ||| 2 ^ 1 ≠ 7 ∧ 5 ||| 2 ^ 1 = 7 ∧ (7 : Nat) ≠ 3) ∧
    (let f : FbSlot := { gen := 1, release := 1, mask := 1, early := 2, next := 6 }
     f.release ≠ 0 ∧ f.early ≠ 0 ∧ f.next = 6 ∧ bitOf f.release 2 = false ∧ bitOf f.early 2 = false ∧ bitOf f.release 0 = true ∧
       bitOf f.early 1 = true ∧ f.early ≠ f.next) ∧
    (let f : FbSlot := { gen := 1, release := 1, mask := 1, early := 2, next := 2 }; f.early ≠ 0 ∧ f.early = f.next) ∧
    (let f : FbSlot := { gen := 1, release := 1, mask := 1 }; f.early = 0 ∧ f.arrived = 0) ∧ bitOf 5 1 = false := by decide
theorem witness_enables : (∀ o ∈ [R.WVCTL 127 1, R.VUCTL 127, R.CPCTL 127, R.DMACTL 95, R.STEPCTL, R.LEDCTL, R.COLCTL],
    up.reaches .host o) ∧ up.fbit (R.WVCTL_ENABLE 127 1) = false ∧ busy up 127 1 = false ∧
    (up.fset (R.WVCTL_ENABLE 127 1) 1).fbit (R.WVCTL_ENABLE 127 1) = true ∧
    up.fencedTest 127 = false ∧ (up.wr (R.FENCE 3) 0x80000000).fencedTest 127 = true ∧
    (up.wr (R.FENCE 3) 0x80000000).reaches .host (R.WVCTL 127 1) := by unfold State.reaches; decide
theorem witness_debug :
    let g := run0.fset (R.CPCTL_DBGEN 0) 1
    let h := haltState g 0 .d 0x0D 7 0 0
    let q := haltState g 0 .d 0x06 1 0 0
    let st := hart0 fun k => { k with stepping := true }
    let k := haltState ((code0 (encR 0x33 0 0 3 1 2)).fset (R.CPCTL_DBGEN 0) 1) 0 .d 0x0D 7 0 0
    (run0.unarmed ∧ run0.reaches .debug (R.CPCTL 0) ∧ run0.fbit (R.CPCTL_DBGEN 0) = false) ∧
    (g.unarmed ∧ g.reaches .debug (R.CPCTL 0) ∧ g.fbit (R.CPCTL_DBGEN 0) = true ∧ g.loaded .d = true ∧
      g.named .d 0 = true ∧ (g.cc 0 .d).hst ≠ .halted ∧ (g.cc 0 .d).hst ≠ .notLoaded) ∧
    (h.unarmed ∧ h.reaches .debug (R.CPCTL 0) ∧ h.fbit (R.CPCTL_DBGEN 0) = true ∧ (h.cc 0 .d).hst = .halted ∧ h.stopped = false ∧ h.fencedSv 0 = false ∧ h.fbit (R.CPCTL_ENABLE 0) = true ∧
      bitsOf (h.rd (R.CPHALTD 0)).toNat 21 3 = 7 ∧ h.loaded .d = true) ∧
    (q.reaches .debug (R.CPCTL 0) ∧ (q.cc 0 .d).hst = .halted ∧ bitsOf (q.rd (R.CPHALTD 0)).toNat 21 3 = 1 ∧
      bitsOf (q.rd (R.CPHALTD 0)).toNat 24 8 ≠ 0x40) ∧
    (k.unarmed ∧ k.reaches .debug (R.CPCTL 0) ∧ (k.cc 0 .d).hst = .halted ∧ k.loaded .d = true ∧ k.stopped = false ∧
      k.fencedSv 0 = false ∧ k.fbit (R.CPCTL_ENABLE 0) = true ∧ inIm k 0 .d (k.cc 0 .d).pc.toNat 4 = true ∧
      scalarBytes k 0 .d (k.cc 0 .d).pc.toNat 4 = leBytes 4 (encR 0x33 0 0 3 1 2)) ∧ (st.cc 0 .d).stepping = true ∧ (st.cc 0 .d).hst ≠ .notLoaded := by
  unfold State.unarmed State.reaches; decide

/-! ## Command instructions at the head of a queue -/

/-- Loop descriptors 0 to 4 of one level, at 0: 1 iteration over operands 0, 0, 1; RMASK 1 and 32 iterations; 1 iteration
into operand 3; RMASK 1; and 1 iteration from operand 2. Operand descriptors 0 to 3 follow at 640: FP32 tiles at 0 and
0x10000 of the local store, linear at 0x20000, and linear at endpoint 0x180. All as their bytes other than 0. -/
def dmem0 : List Host.Cell :=
  [(0, 1), (1, 8), (8, 1), (80, 1), (128, 9), (130, 1), (136, 1), (208, 1), (256, 1), (257, 8), (264, 1), (336, 3),
   (384, 9), (385, 8), (392, 1), (464, 2), (512, 1), (513, 8), (520, 1), (544, 2), (592, 2), (662, 64), (674, 1),
   (694, 64), (706, 2), (711, 8), (726, 64), (743, 12), (758, 64), (764, 128), (765, 1)]
def job1 : Job :=
  { seed := 0, seedIdx := 0, started := true
    recs := [⟨0x03, 0, 0, 0⟩, ⟨0x11, 0, 0, 64⟩, ⟨0x11, 1, 0, 64⟩, ⟨0x12, 0, 0, 32⟩, ⟨0x13, 0, 1, 19⟩,
             ⟨0x18, 0, 0x00040004, 0⟩, ⟨0x19, 0, 0x100, 0⟩, ⟨0x30, 0, 0x10001, 0⟩, ⟨0x38, 5, 0, 0⟩] }
/-- Context D on core 0 with an entry at the head of a queue, in its window. -/
def atQ (q : Nat) (w : W128) : State :=
  let s : State := { up with
    regs := [(R.STAGESTAT, 0x60000000), (R.WVCTL 0 0, 1), (R.VUCTL 0, 1), (R.VUCRVV 0, 0xFFF00000), (R.CPCTL 0, 1),
             (R.DTCFGD 0, 0x805), (R.LSPARTD 0, 0x01000000)]
    ctrs := [(5, { owner := some .d })], jobD := some job1, round := { win := some 0 } }
  s.setCc 0 .d { hst := .running, pc := 0x100, dmem := dmem0, queues := [(q, [⟨w, 7, false⟩])] }
/-- An instruction word: class, operation, loop descriptor and the other fields. -/
def iw (cls op ldx low : Nat) : W128 := BitVec.ofNat 128 (cls * 2 ^ 125 + op * 2 ^ 119 + ldx * 2 ^ 44 + low)
/-- Vector operand selectors A to E. -/
def sel (a b c d e : Nat) : Nat := a * 2 ^ 33 + b * 2 ^ 27 + c * 2 ^ 21 + d * 2 ^ 15 + e * 2 ^ 9
def moverWords : List W128 :=
  [iw 0 0 1 0, iw 1 0 0 0, iw 3 0 0 0, iw 3 1 0 0, iw 4 0 2 (3 * 2 ^ 36), iw 4 1 2 0, iw 4 2 0 (5 * 2 ^ 37)]
def elemWords : List W128 :=
  [iw 2 0x00 0 (sel 32 0 0 35 0), iw 2 0x01 0 (sel 32 33 0 35 0), iw 2 0x02 0 (sel 32 33 0 35 0), iw 2 0x03 0 (sel 32 33 0 35 0),
   iw 2 0x04 0 (sel 32 33 34 35 0), iw 2 0x05 0 (sel 32 33 0 35 0), iw 2 0x06 0 (sel 32 33 0 35 0), iw 2 0x07 0 (sel 32 0 0 35 0),
   iw 2 0x08 0 (sel 32 0 0 35 0), iw 2 0x09 0 (sel 32 33 0 35 0), iw 2 0x0A 0 (sel 32 33 0 35 0), iw 2 0x0B 0 (sel 32 33 0 35 0),
   iw 2 0x0C 0 (sel 32 33 0 35 0), iw 2 0x0D 0 (sel 32 33 34 35 0), iw 2 0x0E 0 (sel 32 0 0 35 0), iw 2 0x0F 0 (sel 32 0 0 35 0),
   iw 2 0x10 0 (sel 32 0 0 35 0 + 20 * 16), iw 2 0x11 0 (sel 32 33 0 35 0 + 4), iw 2 0x12 0 (sel 32 0 0 35 36), iw 2 0x14 0 (sel 32 0 0 35 0)]
def reduceWords : List W128 :=
  [iw 2 0x18 1 (sel 32 0 0 35 0), iw 2 0x19 1 (sel 32 0 0 35 0), iw 2 0x1A 1 (sel 32 0 0 35 0), iw 2 0x1B 1 (sel 32 0 0 35 0),
   iw 2 0x1C 1 (sel 32 0 0 35 36), iw 2 0x1D 0 (sel 32 36 0 40 44), iw 2 0x20 3 (sel 32 0 0 1 0), iw 2 0x28 4 (sel 1 0 0 0 0 + 1 * 16),
   iw 2 0x29 4 (sel 1 0 0 0 0), iw 2 0x2A 4 (sel 0 0 0 1 0), iw 2 0x2B 4 (sel 1 0 0 0 0)]
def syncWords : List W128 :=
  [iw 5 0 0 0, iw 5 1 0 (5 * 2 ^ 32 + 3), iw 5 2 0 (5 * 2 ^ 32 + 9), iw 5 3 0 (5 * 2 ^ 32 + 2), iw 6 0 0 0, iw 6 1 0 4, iw 6 2 0 0]
def ent (w : W128) : QEntry := ⟨w, 7, false⟩
/-- Every hypothesis of the issue statements. -/
def MeetsIn (s : State) (r : IssueRow) (w : W128) : Prop :=
  s.unarmed ∧ s.atHead 0 r .d (ent w) ∧ s.released 0 r .d (ent w) ∧ firstFail (r.allChecks s 0 .d (ent w)) = none
def Meets (r : IssueRow) (w : W128) : Prop := MeetsIn (atQ r.q w) r w
theorem witness_mover_issue : ∀ p ∈ (moverRows 0 0).zip moverWords, Meets p.1 p.2 := by
  unfold Meets MeetsIn State.atHead State.released State.unarmed; decide +kernel
theorem witness_element_issue : ∀ p ∈ (elementRows 0).zip elemWords, Meets p.1 p.2 := by
  unfold Meets MeetsIn State.atHead State.released State.unarmed; decide +kernel
theorem witness_reduce_issue : ∀ p ∈ (reduceRows 0).zip reduceWords, Meets p.1 p.2 := by
  unfold Meets MeetsIn State.atHead State.released State.unarmed; decide +kernel
theorem witness_sync_issue : ∀ p ∈ (syncRows 0).zip syncWords, Meets p.1 p.2 := by
  unfold Meets MeetsIn State.atHead State.released State.unarmed; decide
/-- `atQ` with operand 2, linear in the local store, as the first loop descriptor's D. -/
def atLinear (q : Nat) (w : W128) : State :=
  (atQ q w).setCc 0 .d { (atQ q w).cc 0 .d with dmem := tput 0 dmem0 80 2 }
/-- A Weave of one block and one iteration, and an Unload to a linear operand. -/
theorem witness_weave_once : ∀ p ∈ (moverRows 0 0).zip [iw 0 0 3 0], Meets p.1 p.2 := by
  unfold Meets MeetsIn State.atHead State.released State.unarmed; decide +kernel
theorem witness_unload_linear : ∀ r ∈ ((moverRows 0 0).drop 1).take 1, MeetsIn (atLinear r.q (iw 1 0 0 0)) r (iw 1 0 0 0) := by
  unfold MeetsIn State.atHead State.released State.unarmed; decide +kernel
/-- What holds of a row of the issue statements and of what it issues, with a word in a state. -/
def heldAs (cmd : Instr) (s : Nat → W128 → State) (w : W128) (f : IssueRow → State → Iss → Bool) : Bool :=
  (moverRows 0 0 ++ elementRows 0 ++ reduceRows 0).any fun r =>
    decide (r.cmd = cmd) && decide ((s r.q w).poison = []) && f r (s r.q w) (r.iss (s r.q w) 0 .d (ent w))
/-- One byte of an operand in the local store, granted to context D. -/
def inStore (s : State) (o : OpD) : Bool :=
  decide (o.space = 0) && decide (tierOf (lsBase 0 + o.base) = some (.ls 0)) && granted s .d (lsBase 0 + o.base) 1
theorem witness_held_by_weave :
    heldAs (.weave 0 0) atQ (iw 0 0 3 0) (fun r _ iss => decide (r.cls = 0) && !iss.empty && decide (iss.l.klen = 1) &&
      decide (iss.l.outN = 1) && (iss.strm 0).isSome && (iss.strm 1).isSome) = true ∧ weaveMode (iw 0 0 3 0) = 0 := by
  decide +kernel
theorem witness_held_by_unload :
    heldAs (.unload 0 0) atLinear (iw 1 0 0 0) (fun r _ iss => decide (r.cls = 1) && decide (prod iss.l.active = 1) &&
      (iss.strm 3).any fun sd => decide (sd.f = .fp32) && sd.od.linear && decide (sd.od.tcols = 0) &&
        decide ((convOf sd).mode ≠ .stoch)) = true ∧
    wb (iw 1 0 0 0) 30 = false ∧ wf (iw 1 0 0 0) 36 2 = 0 ∧ wf (iw 1 0 0 0) 31 5 = 0 := by decide +kernel
theorem witness_held_by_mover :
    heldAs (.mover 0) atQ (iw 3 1 0 0) (fun r s iss => decide (r.cls = 3) && decide (r.op = 1) && decide (prod iss.l.active = 1) &&
      (iss.od 0).any (inStore s) && (iss.od 3).any (inStore s)) = true ∧ rlenOf (iw 3 1 0 0) = 1 := by decide +kernel
/-- WSTORE to another module, of 4 bytes of the local store's first word. -/
theorem witness_held_by_wstore :
    heldAs (.wstore 0) atQ (iw 4 0 2 (3 * 2 ^ 36)) (fun r s iss => decide (r.cls = 4) && decide (r.op = 0) &&
      decide (prod iss.l.active = 1) && (iss.od 0).any (inStore s) && (iss.od 3).any fun d => decide (d.space = 2)) = true := by
  decide +kernel
theorem witness_held_by_dmago :
    heldAs (.dmago 0) atQ (iw 4 2 0 (5 * 2 ^ 37)) (fun r _ iss => decide (r.cls = 4) && decide (r.op = 2) && (iss.od 0).isSome) =
      true := by decide +kernel
theorem witness_held_by_vadd :
    heldAs (.vAdd 0) atQ (iw 2 1 0 (sel 32 33 0 35 0)) (fun r _ iss => decide (r.op = 1) && decide (prod iss.l.active = 1)) = true ∧
    vLw (iw 2 1 0 (sel 32 33 0 35 0)) = 0 ∧ ∀ k ∈ [0, 1, 3], 32 ≤ vSel (iw 2 1 0 (sel 32 33 0 35 0)) k := by decide +kernel
theorem witness_held_by_tables :
    heldAs (.vRseed 0) atQ (iw 2 0x29 4 (sel 1 0 0 0 0)) (fun r _ _ => decide (r.op = 0x29)) = true ∧
    heldAs (.vCrvld 0) atQ (iw 2 0x28 4 (sel 1 0 0 0 0 + 1 * 16)) (fun r _ _ => decide (r.op = 0x28)) = true := by decide +kernel
/-- SNOP with a wait on counter 5 at 0 for 1; SNOP with a reserved bit; DMAGO held; TAG 0 and no signal. -/
theorem witness_issue_waits_or_halts :
    let r : IssueRow := ⟨.snop 0, 5, 5, 0, noSlots, syncResv, noHold, syncChecks⟩
    let w := iw 5 0 0 (2 ^ 117 + 5 * 2 ^ 102 + 2 ^ 86)
    let b := iw 5 0 0 1
    ((atQ 5 w).atHead 0 r .d (ent w) ∧ wenOf w = true ∧ ((atQ 5 w).ctr (wctrOf w)).met (wthrOf w) = false) ∧
    (atQ 5 b).unarmed ∧ (atQ 5 b).atHead 0 r .d (ent b) ∧ (atQ 5 b).released 0 r .d (ent b) ∧
      firstFail (r.allChecks (atQ 5 b) 0 .d (ent b)) ≠ none := by
  unfold State.atHead State.released State.unarmed; decide

/-! ## Retirement, memory and the cache -/

/-- An SADD of counter 5 in flight on the sync port of core 0, its effect staged; a V.MOV with one element effect. -/
def saddFlight : InFlight :=
  { word := iw 5 1 0 (5 * 2 ^ 32 + 3), seq := 7, ctx := .d, t0 := 900, effs := [[.cadd 5 3]], flags := 0, latched := [] }
def movFlight : InFlight :=
  { word := iw 2 0 0 (sel 32 0 0 35 0), seq := 7, ctx := .d, t0 := 900, effs := [[.mem [(0x8000010000, 1)] []]], flags := 0,
    latched := [] }
def fly (u : Nat) (i : InFlight) : State := run0.setCore 0 { run0.core 0 with infl := [(u, i)] }
theorem witness_retirement : inflightAt run0 0 5 = none ∧
    (inflightAt (fly 5 saddFlight) 0 5 = some saddFlight ∧ (fly 5 saddFlight).grave = false ∧ (fly 5 saddFlight).unarmed ∧
      mayRetire (fly 5 saddFlight) 0 5 saddFlight = true) ∧
    (senOf saddFlight.word = false ∧ cmplOf saddFlight.word = false ∧ ((fly 5 saddFlight).ctr 5).owner = some .d ∧
      ((fly 5 saddFlight).ctr 5).mode = 0 ∧ ((fly 5 saddFlight).ctr 5).bad = false ∧
      (0 ≤ (((fly 5 saddFlight).ctr 5).val.toNat : Int) + 3 ∧ (((fly 5 saddFlight).ctr 5).val.toNat : Int) + 3 < 2 ^ 32)) := by
  unfold State.unarmed; decide
theorem witness_over_time : inflightAt (fly 2 movFlight) 0 2 = some movFlight ∧ (fly 2 movFlight).grave = false ∧
    (fly 2 movFlight).clk.present = true ∧ (fly 2 movFlight).unarmed ∧ hasElements movFlight = true ∧
    movFlight.effs.flatten = [.mem [(0x8000010000, 1)] []] := by unfold State.unarmed; decide
theorem witness_memory : 1 < [(1 : Byte), 2].length ∧ (0x8000000004 : Nat) < 0x8000000008 ∧
    Memory.wf [(5, (1 : Byte)), (9, 2)] = true := by decide
/-- The window at 383 GiB: its last byte, the byte after it. -/
theorem witness_bar2 :
    let s := up.fset R.BAR2WIN_BASE 383
    s.unarmed ∧ bar2Ok s 0x3FFFFFFF 1 = true ∧ bar2Ok s 0x3FFFFFFF ([some 0] : List (Option Byte)).length = true ∧
    bar2Ok s 0x40000000 1 = false ∧ 0x6000000000 < s.fget R.BAR2WIN_BASE * 2 ^ 30 + 0x40000001 := by
  unfold State.unarmed; decide
/-- A fill of the last line of region 0 for context D, whose ways are free; a line of region 1 with a mark. -/
theorem witness_cache :
    let s : State := { up.fset (R.SCCFG_CWAYD 0) 4 with fills := [⟨0xBFFFFFF, some .d, false, false, []⟩] }
    (s.fills.find? (·.num == 0 * 0xC000000 + 0xBFFFFFF) = some ⟨0xBFFFFFF, some .d, false, false, []⟩ ∧
      (⟨0xBFFFFFF, some .d, false, false, []⟩ : Fill).whole.ctx = some .d ∧ s.grave = false ∧ s.cached 0xBFFFFFF = false ∧ ((s.lines 0xBFFFFFF).filter (·.ctx = .d)).length < waysOf s 0 .d) ∧
    (({ up with fills := [⟨0xBFFFFFF, none, false, false, []⟩] } : State).fills.find? (·.num == 0xBFFFFFF) =
      some ⟨0xBFFFFFF, none, false, false, []⟩ ∧ (⟨0xBFFFFFF, none, false, false, []⟩ : Fill).whole.ctx = none) ∧
    up.reaches .host (R.SCCTL 7) ∧ up.unarmed ∧ up.anyJob = false ∧ run0.anyJob = true ∧ run0.reaches .host (R.SCCTL 7) := by
  unfold State.unarmed State.reaches; decide
theorem witness_scrubber :
    let s := up.fset R.MEMCTL_SCRBPER 1
    (up.fset R.MEMCTL_SCRBPER 0).fget R.MEMCTL_SCRBPER = 0 ∧ s.unarmed ∧ s.grave = false ∧ 2 ≤ s.stage ∧ s.fget R.MEMCTL_SCRBPER ≠ 0 ∧
    scrubbed s 3 0x8183000000 = false ∧
    scrubbed s 0 0x8000000000 = true ∧ tierOf 0x8000000000 = some (.ls 0) ∧ s.poison.contains (0x8000000000 / 4) = false := by
  unfold State.unarmed; decide
theorem witness_cxl :
    let s := run0.fset (R.CXLPD_LEN 3) 1
    let d := s.fset (R.CXLSTAT_STATE 3) 2
    let o := up.fset R.TLCTL_OPEN 1
    (up.unarmed ∧ up.grave = false ∧ 2 ≤ up.stage ∧ (2 : Fin 4) ≠ 0 ∧ (2 : Fin 4) ≠ 3 ∧ (1 : Fin 4) ≠ 0 ∧ up.fget (R.CXLSTAT_STATE 3) ≠ 3 ∧
      usesCxl up .d 3 = false ∧ usesCxl up .t 3 = false) ∧
    (s.unarmed ∧ s.grave = false ∧ 2 ≤ s.stage ∧ usesCxl s .d 3 = true ∧ s.fget (R.CXLSTAT_STATE 3) ≠ 3) ∧ (d.unarmed ∧ d.grave = false ∧ d.fget (R.CXLSTAT_STATE 3) ≠ 0) ∧
    o.grave = false ∧ o.fbit R.TLCTL_OPEN = true ∧ o.anyJob = false ∧ 2 ≤ o.stage ∧ Memory.wf o.mem = true ∧ up.fbit R.TLCTL_OPEN = false := by
  unfold State.unarmed; decide

/-! ## Withy, the DMA channels and the shared ports -/

/-- A message for queue 0 of core 0, then a store of two bytes in a local store, granted to context D or not. -/
def storeAt : Nat := 0x8000000000 + 0xFFFE
def withy0 (items : List WithyItem) : State :=
  { ((run0.fset (R.MQCFG_NMQD 0) 1).fset (R.LSPARTD_LEN 0) 1) with withy := items, withyErrs := [(0, .d)] }
theorem witness_withy :
    let m := withy0 [⟨(0, .d), .msg 0 0 [(5, false)]⟩]
    let g := withy0 [⟨(0, .d), .store storeAt [1, 2] []⟩]
    let n := withy0 [⟨(0, .t), .store storeAt [1, 2] []⟩]
    (m.unarmed ∧ m.grave = false ∧ m.withy = ⟨(0, .d), .msg 0 0 [(5, false)]⟩ :: [] ∧ mqOwner m 0 0 = some .d ∧
      (m.mq 0 0).length + [((5 : Nat), false)].length ≤ 64) ∧
    (g.unarmed ∧ g.grave = false ∧ n.unarmed ∧ n.grave = false ∧ (∀ k, k < 2 → tierOf (storeAt + k) = some (.ls 0)) ∧ granted g .d storeAt 2 = true ∧
      granted g .d (storeAt + 2 - 1) 1 = true) ∧ granted n .t storeAt 2 = false ∧ m.withyErrs = (0, .d) :: [] ∧
    (let i : WithyItem := ⟨(0, .d), .msg 0 0 [(5, false)]⟩
     let j : WithyItem := ⟨(3, .d), .msg 0 0 [(5, false)]⟩
     let k : WithyItem := ⟨(3, .d), .store storeAt [1, 2] []⟩
     (∀ q ∈ [j, k], (withy0 [i, q]).unarmed ∧ (withy0 [i, q]).grave = false ∧ (withy0 [i, q]).withy = [i, q] ∧ i.src.1 ≠ q.src.1 ∧
       clusterOf i.src.1 = clusterOf q.src.1) ∧ withyIsStore i = false ∧ withyIsStore k = true ∧
     (∀ q ∈ [i, j, k], q.body.away = none) ∧ clusterOf i.src.1 = clusterOf 3 ∧ ownBlock (withy0 [i]) 0x180 = false ∧
     tget 0 (withy0 []).stopTurn (clusterOf i.src.1 * 4 + 1) = 0) := by
  unfold State.unarmed; decide
/-- Channel 95 with a run, a shadow list and ENABLE. -/
def chan95 (cur : Option DmaRun) (shadow : Option DmaList) : State :=
  (up.fset (R.DMACTL_ENABLE 95) 1).setChan 95 { cur := cur, shadow := shadow }
def run95 : DmaRun := { list := ⟨0x8000000000, 3⟩, cfg := 0, sig := 0 }
theorem witness_dma_list :
    let e := chan95 none none
    let p := chan95 none (some ⟨0x8000000000, 3⟩)
    (e.unarmed ∧ e.reaches .host (R.DMACTL 95) ∧ chanOwner e 95 = none ∧ (e.chan 95).shadow = none ∧
      bitOf e.fenceChans 95 = false) ∧
    (p.unarmed ∧ p.reaches .host (R.DMACTL 95) ∧ (p.chan 95).shadow = some ⟨0x8000000000, 3⟩ ∧ (p.chan 95).cur = none ∧
      chanRuns p 95 = true) ∧ ((chan95 (some run95) none).chan 95).cur = some run95 ∧ run95.moved = 0 := by
  unfold State.unarmed State.reaches; decide
/-- A list of three entries whose header at 0x8000000000 gives one source of 256 bytes to one destination. -/
theorem witness_dma_header :
    let s := (chan95 (some run95) none).st 0x8000000000 (leBytes 8 256 ++ leBytes 8 (0x80000000 * 2 ^ 32))
    s.unarmed ∧ chanOwner s 95 = none ∧ (s.chan 95).cur = some run95 ∧ chanRuns s 95 = true ∧ run95.fetched = 0 ∧ run95.srcs = [] ∧
    3 ≤ run95.list.nent ∧ run95.list.addr % 16 = 0 ∧ (∀ k, k < 16 → tierOf (run95.list.addr + k) = some (.ls 0)) ∧
    s.poisoned run95.list.addr 16 = false ∧ ofLe (s.ld (run95.list.addr + 8) 8) = 0x80000000 * 2 ^ 32 ∧
    ofLe (s.ld run95.list.addr 8) < 2 ^ 48 := by unfold State.unarmed; decide
theorem witness_dma_short_list :
    let r : DmaRun := { run95 with list := ⟨0x8000000000, 2⟩ }
    fetchOk r = true ∧ r.list.nent < 3 ∧ r.moved = 0 ∧ bitOf r.cfg.toNat 14 = false ∧
    chanRuns (chan95 (some r) none) 95 = true := by decide
set_option maxRecDepth 8192 in
/-- A burst of 256 bytes between local stores 0 and 1; a burst of 128 of 256 bytes to be written. -/
theorem witness_dma_burst :
    let a : Extent := ⟨0x8000010000, 256, false, 0, false, 1⟩
    let d : Extent := ⟨0x8004010000, 256, false, 0, false, 2⟩
    let r : DmaRun := { run95 with fetched := 3, srcs := [a], dsts := [d], total := 256 }
    let b : Burst := ⟨d, 0, List.replicate 128 0, [], none, false⟩
    let w : DmaRun := { r with fetched := 2, bursts := [b], half := true }
    let s := chan95 (some r) none
    (s.unarmed ∧ chanRuns s 95 = true ∧ r.fetched = r.list.nent ∧ 0 < r.fetched ∧ r.moved = 0 ∧ a.len = d.len ∧ r.total = d.len ∧ 0 < d.len ∧
      d.addr % 256 + d.len ≤ 256 ∧ 512 ≤ r.units s.clk.tenths ∧ extentOk s none a = true ∧ extentOk s none d = true ∧
      s.poison = [] ∧ tierOf a.addr = some (.ls 0) ∧ tierOf (a.addr + 255) = some (.ls 0)) ∧
    ((chan95 (some w) none).chan 95).flying = [] ∧ w.bursts = [b] ∧ b.req = none ∧ b.bad = [] ∧
    b.bytes.length + w.done < w.total ∧ w.half = true ∧ w.fetched < w.list.nent ∧
    tierOf (b.ext.addr + b.off) = some (.ls 1) ∧ tierOf (b.ext.addr + b.off + 127) = some (.ls 1) := by
  unfold State.unarmed; decide
theorem witness_lottery :
    let z := (up.fset (R.DMACFG_TICKETS 7) 0).fset (R.DMACFG_TICKETS 8) 0
    let a := up.fset (R.DMACFG_TICKETS 7) 3
    let v := ({ up with jobD := some job1 } : State).setChan 5 { cur := some { run95 with cfg := 0x8000 } }
    up.grave = false ∧ z.grave = false ∧ a.grave = false ∧ (schedReq up (.dma 7) = false ∧ schedReq up .msp = false ∧ schedReq v (.dma 5) = true) ∧
    (up.arb 137).resumeAt = [] ∧ fencedReq up (.dma 7) = false ∧ fencedReq up .msp = false ∧
    (z.arb 137).resumeAt = [] ∧ tickets z (.dma 7) + tickets z (.dma 8) = 0 ∧ tickets a (.dma 7) + tickets a (.dma 8) ≠ 0 ∧ (0 : Nat) < 255 ∧
    up.reaches .host (R.ARBSEED 137) := by unfold State.reaches; decide
theorem witness_arbiter_boundary :
    let g := up.setArb 137 { grant := some (255, 1) }
    let w := up.setArb 137 { drawn := some (0, [255]), drawnTo := some (.dma 7) }
    let f : State := { up.setArb 137 { grant := some (255, 1), grantTo := some (.dma 7) } with fenceChans := 2 ^ 7 }
    (∀ s ∈ [up, g, w, f], s.grave = false) ∧ (g.arb 137).grantTo = none ∧ (w.arb 137).drawnTo = some (.dma 7) ∧
    fencedReq w (.dma 7) = false ∧ ((f.arb 137).grant = some (255, 0 + 1) ∧ (f.arb 137).grantTo = some (.dma 7) ∧
      fencedReq f (.dma 7) = true ∧ (f.arb 137).drawn = none) ∧ (g.arb 137).grant = some (255, 0 + 1) ∧ ([255] : List Nat).contains 255 = true ∧ (up.arb 137).grant = none ∧
    (up.arb 137).drawn = none ∧ (w.arb 137).grant = none ∧ (w.arb 137).drawn = some (0, [255]) ∧
    ([0] : List Nat).contains 0 = true := by decide

/-! ## Rounds, timers, loading and the step unit -/

/-- Rounds RUNNING in a window. -/
def round0 (w : Nat) : State := { up.fset R.RNDSTAT_STATE 2 with round := { win := some w } }
theorem witness_rounds_start_stop :
    (up.reaches .host R.RNDCTL ∧ up.fget R.RNDCTL_RUN = 0 ∧ up.fget R.RNDSTAT_STATE = 0 ∧ up.fget R.RNDCTL_SRC = 0 ∧
      (up.fset R.RNDCTL_SRC 1).fget R.RNDCTL_SRC = 1 ∧ (up.fset R.RNDCTL_SRC 1).reaches .host R.RNDCTL ∧
      up.fget R.RNDCTL_OUTMODE ≠ 1 ∧ (up.fset R.RNDCTL_OUTMODE 1).fget R.RNDCTL_OUTMODE = 1) ∧
    ((round0 0).reaches .host R.RNDCTL ∧ (round0 0).unarmed ∧ (round0 0).anyJob = false ∧ (round0 0).round.win.isSome = true ∧
      up.round.win = none ∧ up.anyJob = false ∧ run0.anyJob = true) ∧
    (up.reaches .host R.RNDPER ∧ up.unarmed ∧ up.shadow = [] ∧ 2 * up.fget R.RNDWIN_DLEN ≤ (10000 : W32).toNat ∧
      2 * (up.fset R.RNDWIN_DLEN 50).fget R.RNDWIN_DLEN ≤ (100 : W32).toNat ∧ (up.fset R.RNDWIN_DLEN 50).shadow = []) ∧
    up.reaches .host R.RNDSTAT := by unfold State.unarmed State.reaches; decide
theorem witness_round_boundary :
    let s := round0 0
    let p := { s with round := { s.round with stopping := true } }
    let f := { up with round := { firstAt := some 10000 } }
    (s.clk.present = true ∧ s.grave = false ∧ p.grave = false ∧ f.grave = false ∧ s.round.firstAt = none ∧ s.round.win = some 0 ∧ s.fget R.RNDCTL_SRC = 0 ∧
      s.round.stopping = false ∧ 2 * s.fget R.RNDWIN_DLEN ≤ s.fget R.RNDPER_PERIOD ∧
      s.clk.tenths ≤ s.round.stampTenths + s.fget R.RNDPER_PERIOD * 10000 ∧ s.led.live = false) ∧
    p.round.stopping = true ∧ p.round.win = some 0 ∧ f.clk.present = true ∧ f.round.firstAt = some 10000 := by decide
/-- A core that named no window-end mark, and one that did; a switch 2 µs and more after its boundary. -/
theorem witness_windows :
    let r : State := { run0 with round := { win := some 0 } }
    let m := r.setCc 0 .d { r.cc 0 .d with marks := 1 }
    let w := r.setCore 0 { r.core 0 with switch := some (.t, 1000) }
    let l : State := { w with clk := { w.clk with tenths := 21001 } }
    let k : State := { r.setCore 0 { r.core 0 with switch := some (.d, 1000) } with clk := { r.clk with tenths := 30000 } }
    let a := run0.setCtr 5 { owner := some .t, mode := 2, val := 1, base := 0 }
    let a : State := { a with round := { realignPend := 1 } }
    (∀ s ∈ [r, m, w, l, k, a], s.grave = false) ∧ (r.clk.present = true ∧ r.round.win = some 0 ∧ 0 < r.fget R.RNDWIN_TWCNT + 1 ∧ overran r 0 = true) ∧
    ((k.core 0).switch = some (.d, 1000) ∧ 20000 < k.clk.tenths - 1000 ∧ k.round.win = some 0) ∧
    (m.round.win = some 0 ∧ overran m 0 = false ∧ m.unarmed) ∧
    ((w.core 0).switch = some (.t, 1000) ∧ (w.core 0).infl.any (fun e => e.2.ctx == other Ctx.t) = false ∧
      w.clk.tenths - 1000 ≤ 20000) ∧ ((l.core 0).switch = some (.t, 1000) ∧ 20000 < l.clk.tenths - 1000) ∧
    bitOf a.round.realignPend 0 = true ∧ dieBusyT a 0 = false ∧ 5 ∈ flowCtrs a .t 0 ∧ (a.ctr 5).residue ≠ 0 := by
  unfold State.unarmed; decide
/-- Edges at both ends of the guard, one before it, and a pulse; ROUND_IN selected in each state. -/
theorem witness_round_edges :
    let s (st : Nat) : State := (round0 0).fset R.RNDSTAT_STATE st |>.fset R.RNDCTL_SRC 1
    let e := (s 2).round.stampTenths + (s 2).fget R.RNDPER_PERIOD * 10000
    let g := max 13 ((s 2).round.sync.toNat % 2 ^ 12) * 10
    let o : State := { up with round := { win := some 0, outmode := 1 } }
    (∀ st ∈ [1, 2, 3], (s st).clk.present = true ∧ (s st).grave = false ∧ (s st).fget R.RNDCTL_SRC = 1 ∧ (s st).fget R.RNDSTAT_STATE = st) ∧
    ((s 2).unarmed ∧ (s 2).round.stopping = false ∧ e ≤ onGrid ((s 2).clk.tenths + (e - g - 1000)) + g ∧
      onGrid ((s 2).clk.tenths + (e - 1000)) ≤ e + g ∧ onGrid ((s 2).clk.tenths + (e - g - 1100)) + g < e) ∧
    (let h (done next : Bool) (good : Nat) : State :=
        { s 3 with round := { (s 3).round with edgeDone := done, edgeNext := next, goodRun := good } };
      (∀ good ∈ [0, 2, 3], (h true false good).round.edgeDone = true ∧ (h true false good).round.edgeNext = false ∧
        (h false false good).round.edgeDone = false ∧ (h true false good).round.goodRun = good) ∧
      onGrid ((s 3).clk.tenths + (e - 1000)) ≤ e ∧ e ≤ onGrid ((s 3).clk.tenths + (e - 1000)) + g ∧
      onGrid ((s 3).clk.tenths + 0) ≤ (s 3).round.stampTenths + 1024 ∧
      onGrid ((s 3).clk.tenths + (e - g - 1100)) + g < e) ∧
    o.clk.present = true ∧ o.grave = false ∧ o.round.firstAt = none ∧ o.round.win = some 0 ∧ o.round.stopping = false ∧ o.round.outmode = 1 ∧
    o.round.pulsed = false ∧ o.clk.tenths ≤ o.round.stampTenths + o.fget R.RNDPER_PERIOD * 10000 := by
  unfold State.unarmed; decide
theorem witness_ramps_and_waits :
    let p (st step : Nat) := (up.fset (R.WVSTAT_PSTATE 127 1) st).fset (R.WVSTAT_RSTEP 127 1) step
    let d := up.fset (R.CPCTL_DBGEN 127) 1
    let w : State := { (hart0 fun k => { k with stall := .scwait 3 5 1, waits := [(0, ⟨5, 10⟩), (6, ⟨5, 10⟩)] }) with
      round := { win := some 0 } }
    let i := hart0 fun k => { k with idle := [(7, BitVec.ofNat 48 (2 ^ 48 - 1))] }
    ((p 1 0).grave = false ∧ (p 2 0).grave = false ∧ i.grave = false) ∧ (p 1 0).fget (R.WVSTAT_PSTATE 127 1) = 1 ∧
    ((p 2 0).fget (R.WVSTAT_PSTATE 127 1) = 2 ∧ pwrN (p 2 0) 127 1 ≤ 0 + 1 ∧ (p 4 0).fget (R.WVSTAT_PSTATE 127 1) = 4) ∧
    ((accessEnds d .host (R.WVDBGDAT 127 31) false).isNone = true ∧ d.unarmed ∧ d.fget (R.CPCTL_DBGEN 127) = 1 ∧
      up.fget (R.CPCTL_DBGEN 127) = 0 ∧ (accessEnds up .host (R.WVDBGDAT 127 31) false).isNone = true) ∧
    (w.unarmed ∧ w.grave = false ∧ w.clk.present = true ∧ (w.cc 0 .d).waits.find? (·.1 == 6) = some (6, ⟨5, 10⟩) ∧
      waitCounts w 0 .d 6 = true ∧ (w.cc 0 .d).waits.find? (·.1 == 0) = some (0, ⟨5, 10⟩) ∧ waitCounts w 0 .d 0 = true ∧
      w.clk.tenths + (10 - 5) ≤ ownEnd (w.fset R.RNDWIN_DLEN 50) .d ∧ ownEnd (w.fset R.RNDWIN_DLEN 50) .d < w.clk.tenths + (1000000000 - 5)) ∧
    up.reaches .host (R.IDLCTL 127) ∧ (tget (0 : BitVec 48) (i.cc 0 .d).idle 7).toNat = 2 ^ 48 - 1 := by
  unfold State.unarmed State.reaches; decide
/-- A ramp of two steps in progress. -/
theorem witness_ramp_continues :
    let s := (up.fset (R.WVSTAT_PSTATE 127 1) 2).setCore 127 { pwr := [(1, BitVec.ofNat 32 (2 ^ 24))] }
    s.fget (R.WVSTAT_PSTATE 127 1) = 2 ∧ s.fget (R.WVSTAT_RSTEP 127 1) + 1 < pwrN s 127 1 := by decide
theorem witness_loader :
    let b := up.fset R.JLSTAT_BUSY 1
    let l : State := { up with loader := some ⟨.t, 0x1000, false, true⟩ }
    let m : State := { l.fset R.EPCFG_VALID 1 with mem := cellsPut [] 0x1000 (leBytes 4 0x4A584D46 ++ leBytes 4 0x10001) }
    let u : State := { run0 with unloads := 1, loader := some ⟨.d, 0x1000, true, true⟩ }
    (up.reaches .host R.JLCTL ∧ up.unarmed ∧ up.fget R.JLCTL_CTX = ctxNum .d ∧ up.fget R.JLSTAT_BUSY = 0 ∧ up.job .d = none) ∧
    (b.fget R.JLSTAT_BUSY = 1 ∧ b.reaches .host R.JLCTL) ∧ (run0.fget R.JLSTAT_BUSY = 0 ∧ run0.job .d = some job0 ∧
      run0.reaches .host R.JLCTL ∧ run0.unarmed) ∧ l.loader = some ⟨.t, 0x1000, false, true⟩ ∧ fitCheck l .t 0x1000 = .inl (1, 0) ∧
    l.grave = false ∧ m.grave = false ∧ u.grave = false ∧ m.loader = some ⟨.t, 0x1000, false, true⟩ ∧ (fitCheck m .t 0x1000).isRight = true ∧
    (bitOf u.unloads 0 = true ∧ bitOf u.unloads 1 = false ∧ ctxDrained u .d = true ∧ u.job .d = some job0 ∧
      u.loader = some ⟨.d, 0x1000, true, true⟩ ∧ u.led.live = false ∧ u.led.queue = [] ∧ u.led.signing = none) := by
  unfold State.unarmed State.reaches; decide +kernel
theorem witness_step_trigger :
    let s : State := { (up.fset R.STEPCTL_ENABLE 1).setCtr 0 { owner := some .t, val := 1 } with jobT := some job0 }
    s.fget R.STEPCTL_ENABLE = 1 ∧ s.loaded .t = true ∧ s.step.voteAt = none ∧ s.stopped = false ∧ s.unarmed ∧
    (s.ctr (s.fget R.STEPCFG0_TRIGCTR)).met (s.fget R.STEPCFG1_TRIGTHR) = true ∧ (s.ctr 0).mode = 0 ∧
    (s.ctr 0).bad = false ∧ (s.ctr 0).owner = some .t ∧ (binding s .t (s.fget R.STEPCFG2_VGRP)).isEmpty = true := by
  unfold State.unarmed; decide
/-- A result of V and C votes, where NVOTE and LSRUN.RUN are given. -/
def voted (v : W32) (nvote run : Nat) : State :=
  { ((up.fset R.STEPCFG1_NVOTE nvote).fset R.LSRUN_RUN run) with step := { voteAt := some 1, result := some (v, 0) } }
theorem witness_step_commit : (∀ p ∈ [((1 : W32), 0, 1), (0, 1, 1), (0, 0, 1), (0, 0, 2)],
      (voted p.1 p.2.1 p.2.2).step.result = some (p.1, 0) ∧ (voted p.1 p.2.1 p.2.2).step.voteAt = some 1 ∧ (voted p.1 p.2.1 p.2.2).grave = false ∧
      (voted p.1 p.2.1 p.2.2).fget R.STEPCFG1_NVOTE = p.2.1 ∧ (voted p.1 p.2.1 p.2.2).fget R.LSRUN_RUN = p.2.2 ∧
      (voted p.1 p.2.1 p.2.2).fget R.LSSTAT_RUNCNT = 0) ∧ (voted 0 0 1).unarmed := by
  unfold State.unarmed; decide
theorem witness_vote_timeout :
    let t : State := { (up.fset R.STEPCFG2_VTO 3) with step := { voteAt := some 1 }, round := { num := 4 } }
    t.grave = false ∧ t.sendPend.contains (.t, t.fget R.STEPCFG2_VGRP) = false ∧
    ({ t with sendPend := [(.t, 0)] } : State).sendPend.contains (.t, t.fget R.STEPCFG2_VGRP) = true ∧ t.step.result = none ∧ t.step.voteAt = some 1 ∧ (1 : W64).toNat + t.fget R.STEPCFG2_VTO ≤ t.round.num.toNat := by decide

/-! ## Collectives and the ledger -/

/-- A binding of group 0: flags, trigger counter 5 at threshold 1. -/
def bnd (flags : Nat) : List Byte := leBytes 32 flags ++ [5, 0, 1, 0] ++ List.replicate 28 0
def group0 (flags : Nat) : State := { (ctr5 1 0) with bindings := [(0, bnd flags)] }
theorem witness_local_send :
    let p (s : State) := sendCtx s 0 fun _ b => (s.ctr (bTrigCtr b)).met (bTrigThr b)
    let e := (group0 1).fset R.COLCTL_ENABLE 1
    let q : State := { e with sendPend := [(.d, 0)], sends := [⟨.d, 0, 0, []⟩] }
    let h : State := { q.fset R.COLCTL_ENABLE 0 with sends := [⟨.d, 0, 0, [⟨0, [], none⟩]⟩] }
    (q.grave = false ∧ q.stopped = false ∧ q.fget R.COLCTL_ENABLE = 1 ∧ h.fget R.COLCTL_ENABLE = 0 ∧
      h.sends = ⟨.d, 0, 0, [⟨0, [], none⟩]⟩ :: [] ∧ ∀ p ∈ h.sends, p.rest ≠ []) ∧
    ((group0 1).stopped = false ∧ (group0 1).unarmed ∧ p (group0 1) = some .d ∧ (group0 1).fget R.COLCTL_ENABLE = 0 ∧
      ((group0 1).ctr (bTrigCtr (binding (group0 1) .d 0))).mode = 0 ∧
      ((group0 1).ctr (bTrigCtr (binding (group0 1) .d 0))).owner = some .d) ∧
    (e.fget R.COLCTL_ENABLE = 1 ∧ sendRoom e (bIod (binding e .d 0)) = true ∧ e.sendPend = [] ∧ p e = some .d) ∧
    (q.sendPend = [(.d, (0 : GrpId).val)] ∧ bLsend (binding q .d 0) = true ∧ bSrcSu (binding q .d 0) = false ∧
      q.sends = ⟨.d, 0, 0, []⟩ :: [] ∧ bSentSig (binding q .d 0) = false) ∧
    bSentSig (binding (group0 0x81) .d 0) = true := by unfold State.unarmed; decide
/-- Group 4095 of I/O die A open with a cut-off at 1 µs: a root without ALLREDUCE, and a member whose up port is 11. -/
def red (w0 : W32) : State :=
  { up with
    groups := [(tblKey 0 0 4095 4096 * 3, w0), (tblKey 0 0 4095 4096 * 3 + 1, 0x10000)]
    insts := [(tblKey 0 0 4095 4096, { opn := some { tag := 0 }, mask := 3 })] }
def redOpen (s : State) : Prop :=
  (s.inst 0 0 4095).opn = some { tag := 0 } ∧ (s.inst 0 1 4095).opn = none ∧ (gentry s 0 0 4095).tagk = false ∧
    (afterRound s 0 (gentry s 0 0 4095).cutoff).isSome = true ∧ s.redWait = [] ∧ s.grave = false
theorem witness_reduction_cutoff_root : redOpen (red 0xC0000000) ∧
    (gentry (red 0xC0000000) 0 0 4095).root = true ∧ (gentry (red 0xC0000000) 0 0 4095).ar = false := by
  unfold redOpen; decide
theorem witness_reduction_cutoff_member : redOpen (red 0x80580000) ∧
    (gentry (red 0x80580000) 0 0 4095).root = false ∧ (gentry (red 0x80580000) 0 0 4095).up = 11 ∧
    (gentry (red 0x80580000) 0 0 4095).upalt = none := by
  unfold redOpen; decide
/-- Both tables' instances open with the same cut-off, as at a table switch; table B's alone. -/
theorem witness_reduction_cutoff_tables :
    let s := red 0xC0000000
    let b : State := { s with
      groups := s.groups ++ [(tblKey 0 1 4095 4096 * 3, 0xC0000000), (tblKey 0 1 4095 4096 * 3 + 1, 0x10000)]
      insts := s.insts ++ [(tblKey 0 1 4095 4096, { opn := some { tag := 0 }, mask := 3 })] }
    (b.inst 0 1 4095).opn = some { tag := 0 } ∧ (gentry b 0 1 4095).tagk = false ∧
    afterRound b 0 (gentry b 0 0 4095).cutoff = afterRound b 0 (gentry b 0 1 4095).cutoff ∧
    (afterRound b 0 (gentry b 0 1 4095).cutoff).isSome = true ∧ (gentry b 0 1 4095).root = true ∧ (gentry b 0 1 4095).ar = false := by
  decide
theorem witness_closes :
    let c : State := { up with insts := [(tblKey 0 0 4095 4096, { closing := some { tag := 0 } })] }
    let r : State := { up with returns := [(retKey 4095 0, { tag := 0 })] }
    (c.grave = false ∧ r.grave = false ∧ hasReturned r 4095 0 = false) ∧ (c.inst 0 0 4095).closing.isSome = true ∧
    (firstReturn r 4095 = some { tag := 0 } ∧
      (groupEntry r 4095).tagk = false ∧
      (afterRound r 0 (bRetOff (bindOf r 1 4095))).isSome = true) := by decide
theorem witness_return_stale :
    let k : State := { up with
      retEnts := [(1023, [1])], rets := [(1023, { armed := true })], step := { committed := true } }
    (retEnt k 1023).isEmpty = false ∧ (k.ret 1023).armed = true ∧ (k.ret 1023).complete = false ∧ (k.ret 1023).stale = false ∧
    k.step.committed = true ∧ k.step.voteAt = none ∧ k.unarmed ∧ k.grave = false := by unfold State.unarmed; decide
theorem witness_group_access :
    let s := up.fset R.GRPSEL_INDEX 4095
    s.reaches .host R.COLCTL ∧ (accessEnds s .host (R.GRPDATA 2) false).isNone = true ∧ s.reaches .host (R.GRPDATA 2) ∧
    s.unarmed ∧ s.anyJob = false ∧ fieldsLegal (groupFields 0x8B880000) = true ∧ fieldsLegal (groupFields 0x8C880000) = false ∧
    entryClash ⟨0, 0, 4095, 0x8B880000, 0, 0⟩ = false := by unfold State.unarmed State.reaches; decide
/-- A ledger of one core and one slot: lane counters from 10, done counters from 20. -/
def ledS (led : Led → Led) : State :=
  { up with
    led := led { live := true, cfg := { dcores := [0], outEnt := 2, sigEnt := 1, ringEnt := 4, lcBase := 10, doneBase := 20 } }
    ctrs := [(10, { owner := some .d, val := 1 }), (20, { owner := some .d, val := 1 })] }
theorem witness_ledger :
    let b := ledS fun l => { l with batches := [⟨2, 0, 1, false, none, false, false⟩] }
    let q := ledS fun l => { l with queue := [.record 2 0 0 0 0 true 0 2, .batchEnd 2] }
    let w := ledS fun l => { l with queue := [.record 2 0 0 0 0 true 0 2], outProd := 2 }
    let i := ledS fun l => { l with blocks := [{ rnd := 2, evCount := 1 }] }
    let z := ledS fun l => { l with blocks := [{ id := 7, rnd := 2, idig := some [] }], queue := [.seal 7] }
    let g := ledS fun l => { l with signing := some [], suspended := true }
    (b.unarmed ∧ b.grave = false ∧ b.led.live = true ∧
      b.led.batches.find? (fun k => !k.done) = some ⟨2, 0, 1, false, none, false, false⟩ ∧
      b.led.cfg.dcores.length ≤ (b.ctr (doneCtr b.led.cfg (2 % 2))).read.toNat) ∧
    (q.led.queue = [LItem.record 2 0 0 0 0 true 0 2] ++ LItem.batchEnd 2 :: [] ∧
      q.led.outProd - outCons q + [LItem.record 2 0 0 0 0 true 0 2].length ≤ q.led.cfg.outEnt) ∧
    (w.led.queue = LItem.record 2 0 0 0 0 true 0 2 :: [] ∧ w.led.waiting = false ∧
      w.led.cfg.outEnt ≤ w.led.outProd - outCons w) ∧
    (i.led.blocks.find? (fun k => k.idig.isNone) = some { rnd := 2, evCount := 1 }) ∧
    (z.led.queue = LItem.seal 7 :: [] ∧ z.led.blocks.find? (·.id == 7) = some { id := 7, rnd := 2, idig := some [] } ∧
      z.stopped = false ∧ z.led.outProd - outCons z < z.led.cfg.outEnt) ∧
    (z.led.signing = none ∧ z.led.sigProd - sigCons z < z.led.cfg.sigEnt ∧ z.reaches .host R.LEDCTL) ∧
    (let f := ledS fun l => { l with sigProd := 1 }; f.led.live = true ∧ f.led.cfg.sigEnt ≤ f.led.sigProd - sigCons f) ∧
    g.led.signing = some [] ∧ g.led.signing.isSome = true ∧ g.led.suspended = true := by
  unfold State.unarmed State.reaches; decide

/-! ## Flits and ports -/

/-- Endpoint block 1, the ports ACTIVE and traffic on; all of memory in inbound window 0. -/
def net : State :=
  { (((up.fset R.EPCFG_EPBASE 1).fset R.EPCFG_VALID 1).fset (R.LNKSTAT_STATE 23) 5) with
    wide := [(wideKey 2 0x10, 7), (wideKey 2 0x11, 0x100000000000)] }
/-- A flit in order at port 23. -/
def fl (h : W128) : FlitIn := ⟨sealHdr h 0, List.replicate 240 0, false, 0, 0⟩
/-- A flit for the module's endpoint at a device address, or its core 127. -/
def memFl (typ addr len : Nat) : FlitIn := fl (mkHdr typ 1 0 false 0x100 (specMem 0x200 addr len))
theorem witness_flits_at_the_module : (∀ f ∈ [memFl 1 0x5FCFFFFF10 240, memFl 2 0 1, memFl 1 0x6000000000 1,
      fl (mkHdr 5 1 0 false 0x100 (0x200 * 2 ^ 52 + 16383 * 2 ^ 38)), fl (mkHdr 5 1 0 false 0x100 (0x200 * 2 ^ 52 + 2 ^ 36)),
      fl (mkHdr 4 1 0 false 0x1FF (specMsg 0x200 15 30 false 0)), fl (mkHdr 4 1 0 false 0x1FF (specMsg 0x200 15 1 true 0)),
      memFl 3 0 1, fl (mkHdr 6 1 0 false 0x100 (specAns 0x200 0 1 0)), fl (mkHdr 7 1 0 false 0x100 (specAns 0x200 0 1 1)),
      fl (mkHdr 10 3 0 false 0x100 (0x200 * 2 ^ 52)), fl (mkHdr 8 1 0 false 0xFFF (specMem 0x200 0 240))],
      net.admits 23 f) ∧ net.unarmed ∧ (flitOf 23 (memFl 1 0 1)).dst = ownEp net := by
  unfold State.admits State.goodFlit State.unarmed; decide +kernel
theorem witness_write_and_read_flits :
    inboundCode net (0x5FCFFFFF10 : Nat) 240 true = 0 ∧ 0x5FCFFFFF10 + 240 ≤ 0x6000000000 ∧ inboundCode net 0 1 false = 0 ∧
    inboundCode net 0x6000000000 1 true ≠ 0 ∧
    (let s : State := { net with routes := [(tblKey 0 0 0x200 (2 ^ 20), 0xAC00)] }
     let t := s.fset (R.LNKSTAT_STATE 11) 5
     t.routedTo (iodOfAddr 0) 0x200 (0 * 12 + 11)) := by unfold State.routedTo; decide +kernel
theorem witness_ctr_and_msg_flits :
    let s := (net.setCtr 16383 { owner := some .d }).fset (R.MQCFG_NMQT 127) 1
    let v : State := { s with msgParts := [] }
    (s.ctr 16383).owner.isSome = true ∧ (s.ctr 16383).mode = 0 ∧ (s.ctr 16383).bad = false ∧
    (v.msgParts = [] ∧ ownBlock v 0x1FF = true ∧ 128 ≤ 0x1FF % 256 ∧ (mqOwner v 127 15).isSome = true ∧
      (v.mq 127 15).length + 30 ≤ 64) := by decide
theorem witness_answers :
    let q (typ : Nat) : Remote := ⟨0, typ, 0x200, 0, 1, some 0, 0, 1, .withy 0 .d, false⟩
    let m : Remote := ⟨0, 4, 0x200, 0, 1, some 0, 0, 1, .message 0 .d, false⟩
    let v : State := { net with remotes := [⟨0, 2, 0x200, 0, 1, some 0, 0, 0, .withy 0 .d, false⟩] }
    (takeRemote 2 0 0x200 1 false [] = none ∧ takeRemote 2 0 0x200 1 false [q 2] = some (q 2, []) ∧
      takeRemote 1 0 0x200 1 false [q 1] = some (q 1, []) ∧ takeRemote 4 0 0x200 1 false [m] = some (m, [])) ∧
    (ownBlock net 0x100 = true ∧ ownBlock net 0x200 = false ∧ answerVcBad net (flitOf 23 (memFl 3 0 1)) = false) ∧
    (v.admits 23 (memFl 3 0 1) ∧ answerVcBad v (flitOf 23 (memFl 3 0 1)) = true) := by
  unfold State.admits State.goodFlit; decide +kernel
theorem witness_mcwrite :
    let s : State := { net with mcast := [(tblKey 1 0 4095 4096, 0xC000)] }
    bitOf (mcastEntry net 1 0 4095) 15 = false ∧ bitOf (mcastEntry s 1 0 4095) 15 = true ∧
    bitsOf (mcastEntry s 1 0 4095) 0 12 = 0 ∧ bitOf (mcastEntry s 1 0 4095) 13 = false ∧
    bitOf (mcastEntry s 1 0 4095) 14 = true ∧ s.retEnts = [] := by decide
/-- A LINK flit without and with a NAK of the kept flit 0. -/
theorem witness_link_flit :
    let l (spec : Nat) := fl (mkHdr 0 3 0 false 0 spec)
    let s := net.setPort 23 { replay := [(⟨0, [], none⟩, 0)] }
    (∀ f ∈ [l 0, l (2 ^ 67)], net.goodFlit 23 f ∧ (flitOf 23 f).typ = 0 ∧ (flitOf 23 f).lseq = (net.port 23).expect) ∧
    bitOf (l 0).hdr.toNat 83 = false ∧ bitOf (l (2 ^ 67)).hdr.toNat 83 = true ∧ s.goodFlit 23 (l (2 ^ 67)) ∧
    keptFrom (hf (l (2 ^ 67)).hdr 71 12) (s.port 23).replay ≠ [] := by unfold State.goodFlit; decide +kernel
/-- A RED flit of group 7 in FP32 whose adder serves I/O die B; its slot free, and in use by another input. -/
theorem witness_red_flit :
    let f := fl (mkHdr 9 2 0 false 0x100 (specRed 7 0 1 1 5))
    let g : State := { net with
      groups := [(tblKey 1 0 7 4096 * 3, 0x80500000)], insts := [(tblKey 1 0 7 4096, { opn := some { tag := 0 }, mask := 0x807 })] }
    let x : ASlot := ⟨1, 0, 7, 0, 5, [], 1, 1, false⟩
    let h := setSlots g 12 [x]
    (net.admits 23 f ∧ (flitOf 23 f).typ = 9 ∧ net.redWait = [] ∧ (gentry net 1 0 7).valid = false) ∧
    (g.admits 23 f ∧ (gentry g 1 0 7).valid = true ∧ isDown (gentry g 1 0 7) 11 = false ∧
      (g.inst 1 0 7).opn = some { tag := 0 } ∧ (flitOf 23 f).rtag = 0 ∧ (flitOf 23 f).fmt32 = true ∧
      bitOf (g.inst 1 0 7).removed 11 = false ∧ 2 ^ 11 &&& (g.inst 1 0 7).mask ≠ (g.inst 1 0 7).mask ∧
      (gentry g 1 0 7).root = false ∧ slotsOf g (gentry g 1 0 7).adder = []) ∧
    (slotsOf h (gentry h 1 0 7).adder = [x] ∧ x.of (gentry h 1 0 7) 0 = true ∧ x.at (gentry h 1 0 7) (flitOf 23 f).rtag (flitOf 23 f).off = true ∧
      x.mask &&& (h.inst 1 0 7).mask ≠ (h.inst 1 0 7).mask ∧ bitOf x.mask 11 = false ∧
      (x.mask ||| 2 ^ 11) &&& (h.inst 1 0 7).mask ≠ (h.inst 1 0 7).mask) := by
  unfold State.admits State.goodFlit; decide +kernel
/-- A closed port, an uncorrectable codeword, a CRC that does not match, an LSEQ behind and ahead, a full buffer, and a
WRITE flit on virtual channel 2. -/
theorem witness_flits_not_taken :
    let f := memFl 1 0 1
    let full := net.setPort 23 { rx := [(1, 512)] }
    let far (e : Nat) := net.setPort 23 { expect := e }
    let bad := fl (mkHdr 1 2 0 false 0x100 (specMem 0x200 0 1))
    portActive net 0 = false ∧ portActive net 23 = true ∧ (∀ s ∈ [net, full, far 1, far 4095], s.grave = false) ∧ (net.fset (R.LNKRPL_UNCLIM 23) 0).fget (R.LNKRPL_UNCLIM 23) = 0 ∧
    crc16 (f.hdr + 1) ≠ hf (f.hdr + 1) 0 16 ∧ crc16 f.hdr = hf f.hdr 0 16 ∧ (flitOf 23 f).typ = 1 ∧
    ((flitOf 23 f).lseq + 4096 - ((far 4095).port 23).expect) % 4096 = 1 ∧
    ((flitOf 23 f).lseq + 4096 - ((far 1).port 23).expect) % 4096 = 4095 ∧
    bufDepth (flitOf 23 f).vc ≤ tget 0 (full.port 23).rx (flitOf 23 f).vc ∧ tget 0 (net.port 23).rx (flitOf 23 f).vc < bufDepth (flitOf 23 f).vc ∧
    trafficOn net = true ∧ crc16 bad.hdr = hf bad.hdr 0 16 ∧ (flitOf 23 bad).typ = 1 ∧ flitOk (flitOf 23 bad) = false ∧ f.unc = false ∧ f.uncw = 0 ∧
    ({ f with uncw := 2 } : FlitIn).uncw ≠ 0 ∧
    expectsAnswer 1 = true ∧ expectsAnswer 3 = false ∧ ownBlock net (flitOf 23 bad).src = false := by
  decide +kernel
/-- Port 23 in each training state; a flit of each virtual channel to send; the rest of a port's events. -/
theorem witness_ports :
    let st (k : Nat) := up.fset (R.LNKSTAT_STATE 23) k
    let tx (v passed : Nat) := net.setPort 23 { tx := [(v, [⟨0, [], none⟩])], passed := passed }
    let old : State := { up with remotes := [⟨0, 1, 0x200, 0, 1, some 0, 0, 0, .withy 0 .d, false⟩], epochHold := true }
    let now : State := { up with round := { num := 1 } }
    (∀ k ∈ [0, 1, 2, 3, 4, 5, 6, 7], (st k).fget (R.LNKSTAT_STATE 23) = k ∧ (st k).grave = false) ∧
    ((up.port 23).returns < 2 ∧ 2 ≤ ((up.setPort 23 { returns := 2 }).port 23).returns) ∧
    (up.reaches .host (R.LNKCTL 23) ∧ up.unarmed ∧ up.anyJob = false ∧ run0.anyJob = true ∧ run0.reaches .host (R.LNKCTL 23)) ∧
    (net.grave = false ∧ old.grave = false ∧ now.grave = false) ∧ (∀ v ∈ [0, 2, 3], (tx v 0).grave = false ∧ trafficOn (tx v 0) = true ∧ tget [] ((tx v 0).port 23).tx v = ⟨0, [], none⟩ :: [] ∧
      tget [] ((tx v 0).port 23).tx 1 = []) ∧
    (tx 1 64).fget (R.LNKCTL_UMIN 23) + 1 ≤ ((tx 1 64).port 23).passed ∧
    ((net.setPort 23 { lost := true, replay := [(⟨0, [], none⟩, 0)] }).port 23).lost = true ∧
    (eldest old.remotes = some (⟨0, 1, 0x200, 0, 1, some 0, 0, 0, .withy 0 .d, false⟩, 0) ∧ up.remotes = [] ∧ old.epochHold = true ∧ oldPending old = false) ∧
    (2 ≤ (now.fset R.RNDSTAT_STATE 2).fget R.RNDSTAT_STATE ∧ rtgornd now ≤ now.round.num.toNat ∧ up.fget R.RNDSTAT_STATE < 2) ∧
    (net.port 23).heldIn = [] ∧ (net.port 23).replay.length < 1024 ∧ ({ up with wide := [(wideKey 6 1, 1)] } : State).round.num.toNat <
      rtgornd { up with wide := [(wideKey 6 1, 1)] } ∧ up.reaches .host R.RTCTL := by
  unfold State.unarmed State.reaches; decide +kernel
theorem witness_route_access : (accessEnds up .host R.RTDATA false).isNone = true ∧ up.reaches .host R.RTDATA ∧
    up.fget R.RTSEL_KIND = 0 ∧ outLegal (bitsOf 0xFC00 10 5) = false ∧ outLegal (bitsOf 0xAC00 10 5) = true ∧
    bitOf 0xAC00 9 = false ∧ fieldsLegal (routeFields 0xAC00) = true ∧ fieldsLegal (routeFields 0xFC00) = false := by unfold State.reaches; decide +kernel

/-! ## The host function, registers and mailboxes -/

theorem witness_host :
    let b (o : Nat) := 0x900000 ≤ o ∧ o < 0x1F00000
    let m : State := { ((up.fset (R.MQCFG_NMQT 127) 1).fset R.HIFSTAT_BME 1) with
      msixTab := [(4, 0xFEE00000), (7, 1)], msixPend := [1], msixOn := true }
    (msixUp State.reset = false ∧ msixUp m = true ∧ bar4Up (m.fset R.STAGESTAT_STAGE 1) = false ∧ msixUp (m.fset R.STAGESTAT_STAGE 1) = true) ∧
    (State.reset.stage = 0 ∧ up.stage ≠ 0) ∧ (bar4Up m = true ∧ m.unarmed ∧ (mqOwner m 127 15).isSome = true ∧
      (m.mq 127 15).length + 32 ≤ 64) ∧ b 0x900000 ∧ b 0x1EFFFFF ∧ (none : Option Byte) ∈ [none] ∧
    (m.msixPend.contains 1 = true ∧ msixFree { m with msixTab := [(4, 0xFEE00000), (7, 0)] } 1 = true) ∧
    up.msixPend.contains 1 = false ∧ (up.anyJob = false ∧ up.chans = [] ∧ up.unloads = 0 ∧ up.perst = false) := by
  unfold State.unarmed; decide +kernel
theorem witness_register_writes :
    let l := up.fset (R.WVCFG_LOCK 127 1) 1
    (up.unarmed ∧ ∀ o ∈ [R.RTSEL, R.GRPSEL, R.RNDCTL, R.WVDBGSEL 127, R.EPCFG, R.WVCFG 127 1, R.CPCTL 127, R.UPDSTB],
      up.reaches .host o) ∧
    (R.RNDCTL % 4 = 0 ∧ (regSpec R.RNDCTL).isSome = true ∧ stageReached State.reset R.RNDCTL = false) ∧
    (stageReached up R.RNDCTL = true ∧ up.fget R.HIFSTAT_D3 = 0 ∧ State.reset.fget R.HIFSTAT_D3 = 0) ∧
    (locate 0x3FFFFFC = none ∧ up.reaches .host (0x3FFFFFF / 4 * 4)) ∧ 64 ≤ bitsOf 0x4000 8 7 ∧
    (l.unarmed ∧ l.reaches .host (R.WVCFG 127 1) ∧ l.fget (R.WVCFG_LOCK 127 1) = 1) ∧
    (7 : Nat) < 8 := by unfold State.unarmed State.reaches; decide +kernel
/-- The mailbox of the Round block: RNDNUM, and RNDSTART while Rounds are stopped; a selector it has not. -/
theorem witness_mailboxes :
    let p : Place := ⟨1, .round, 0, 0x80⟩
    let b := up.setMbox p .host { busy := true }
    (b.reaches .host (R.roundBase + 0x80) ∧ (b.mbox p .host).busy = true ∧ (b.mbox p .host).sel ≠ selWord (4 : W16).toNat false ∧
      (up.mbox p .host).busy = false) ∧ mboxSel (R.roundBase + 0x80) = some p ∧ p.kind = .round ∧ up.reaches .host (R.roundBase + 0x80) ∧ up.unarmed ∧
    wideRead up p (1 : W16).toNat = some 0 ∧ wideRead up p (0 : W16).toNat = none ∧ up.fget R.RNDSTAT_STATE = 0 := by
  unfold State.reaches State.unarmed; decide +kernel

/-! ## Start, the management mailbox, attestation, faults, power and the sideband -/

def atStage (st : Nat) (sec : StageS) : State := { up.fset R.STAGESTAT_STAGE st with sec := sec }
theorem witness_start :
    let b := atStage 1 { base := true }
    let l := ((up.fset R.EPCFG_LOCK 1).fset (R.WVCFG_LOCK 127 1) 1).fset (R.CPCTL_DBGLOCK 127) 1
    (State.reset.sec.base = false ∧ State.reset.sec.in54 = false ∧ State.reset.grave = false ∧
      State.reset.fget R.STAGESTAT_FAIL = 0) ∧
    (l.sec.base = true ∧ l.sec.in54 = true ∧ (∀ f ∈ [R.EPCFG_LOCK, R.WVCFG_LOCK 127 1, R.CPCTL_DBGLOCK 127], l.fget f = 1 ∧
      up.fget f = 0)) ∧
    (b.stage = 1 ∧ b.sec.in54 = false ∧ b.pw.tripped = false ∧ b.grave = false ∧ b.fget R.STAGESTAT_FAIL = 0) ∧
    ((atStage 2 up.sec).stage = 2 ∧ (atStage 2 up.sec).grave = false ∧ (atStage 2 up.sec).fget R.STAGESTAT_FAIL = 0 ∧
      (atStage 2 up.sec).fget R.BOOTSTAT_DBGPOL = 0) ∧
    up.sec.base = true ∧ up.sec.in54 = true ∧ State.reset.sec.flop = none := by decide
/-- A mailbox command waiting from the sideband: its operation and its data. -/
def mbS (stage op : Nat) (req : List Byte) (f : StageS → StageS := id) : State :=
  atStage stage (f { base := true, in54 := true, mbq := [.sideband], sb := { op := op, req := req, busy := true } })
theorem witness_mailbox_commands :
    (∀ p ∈ [(1, 0), (2, 0), (3, 0), (4, 1), (5, 5), (6, 2), (7, 2), (8, 0)], (mbS 3 p.1 (List.replicate p.2 0)).sec.base = true ∧
      (mbS 3 p.1 (List.replicate p.2 0)).sec.mbq.head? = some .sideband ∧ mbOp (mbS 3 p.1 (List.replicate p.2 0)) .sideband = p.1 ∧
      (mbReq (mbS 3 p.1 (List.replicate p.2 0)) .sideband).length = p.2 ∧
      (mbReq (mbS 3 p.1 (List.replicate (p.2 + 1) 0)) .sideband).length ≠ p.2) ∧
    (((mbS 3 8 []).fset R.FHSTAT_STATE 2).grave = true ∧ (mbS 3 8 []).grave = false ∧ (mbS 3 8 []).reports = [] ∧ (mbS 3 8 []).stopped = false ∧ (mbS 3 8 []).fget R.MEMCTL_DUMP = 0 ∧
      (mbS 0 8 []).stage < 1 ∧ (mbS 1 4 [1]).stage < 2 ∧ (mbS 2 7 [0, 1]).stage < 3 ∧ 1 ≤ (mbS 1 1 []).stage) ∧
    ((mbS 3 6 [0xFF, 0x0F]).fget R.EPCFG_LOCK = 0 ∧ imgNat (mbReq (mbS 3 6 [0xFF, 0x0F]) .sideband) 0 2 ≤ 4095 ∧
      4095 < imgNat (mbReq (mbS 3 6 [0x00, 0x10]) .sideband) 0 2 ∧ ((mbS 3 6 []).fset R.EPCFG_LOCK 1).fget R.EPCFG_LOCK = 1) ∧
    (let s := (mbS 3 7 [0, 9]).fset R.BOOTSTAT_SVN 9
     s.stage = 3 ∧ s.anyJob = false ∧ s.sec.fw < 9 ∧ 9 ≤ s.fget R.BOOTSTAT_SVN) ∧
    measurement (mbS 3 4 [3] fun k => { k with meas := [(3, [1])] }) 3 = some [1] ∧ measurement (mbS 3 4 [3]) 3 = none := by
  decide +kernel
theorem witness_flash :
    let b := up.fset R.FLSTAT_SLOT 1
    let o : State := { up with sec := { up.sec with flop := some ⟨0, 0, some (List.replicate 256 0)⟩ } }
    up.reaches .host R.FLCTL ∧ (b.fget R.FLSTAT_BUSY = 0 ∧ b.fget R.FLSTAT_SLOT ≠ b.fget R.BOOTSTAT_SLOT) ∧
    (2 ≤ up.stage ∧ up.fget R.FLSTAT_SLOT = up.fget R.BOOTSTAT_SLOT) ∧
    o.sec.flop = some ⟨0, 0, some (List.replicate 256 0)⟩ ∧ (flashPage o 0 (0 / 256)).length = 256 := by
  unfold State.reaches; decide +kernel
/-- A VENDOR_DEFINED request that asks for the companion signature; the module's PCI vendor number is the implementation's. -/
def companionReq : List Byte := [0x13, 0xFE, 0, 0, 3, 0, 2] ++ leBytes 2 Config.vendor.toNat ++ [1, 0, 1]
theorem witness_companion_request : companionAsked companionReq = true := by
  have h : ∀ v : W16, (BitVec.ofNat 8 v.toNat).toNat + 256 * ((BitVec.ofNat 8 (v.toNat / 256)).toNat) = v.toNat := by
    intro v
    have := v.isLt
    simp only [BitVec.toNat_ofNat]
    omega
  have e := h Config.vendor
  simp [companionAsked, companionReq, imgNat, leBytes, ofLe]
  simpa using e
theorem witness_attestation :
    let b := up.fset R.STAGESTAT_BORDERSEEN 1
    let m : State := { b with sec := { b.sec with meas := [(3, [1])] } }
    let d (x : Spdm) : State := { up with sec := { up.sec with spdm := x } }
    (spdmUp up = true ∧ up.sec.spdm.xfer = 0 ∧ up.fget R.STAGESTAT_BORDERSEEN = 0 ∧ spdmUp m = true ∧
      m.fget R.STAGESTAT_BORDERSEEN = 1 ∧ measurement m 3 = some [1]) ∧
    ((atStage 2 up.sec).sec.base = true ∧ (atStage 2 up.sec).grave = false ∧ spdmUp (atStage 2 up.sec) = false) ∧
    (imgNat [] 12 4 = 0 ∧ 42 ≤ imgNat ([0, 0, 0, 0, 0, 0, 0, 0, 0, 0, 0, 0, 42] : List Byte) 12 4) ∧
    (imgNat [0x13, 0x82, 2, 0, 0, 0] 4 2 ≤ (chainOf up 2).length ∧ reqByte [0x13, 0x82, 2, 0] 2 % 16 ≤ 2 ∧
      2 < reqByte [0x13, 0x83, 3, 0] 2 % 16 ∧ reqByte [0x13, 0x83, 0, 1] 3 ∈ [0, 1, 0xFF] ∧
      reqByte [0x13, 0x83, 0, 2] 3 ∉ [0, 1, 0xFF]) ∧ companionAsked [] = false ∧
    ((d { signed := some [], ready := true }).sec.spdm.signed = some [] ∧ (d { asked := true }).sec.spdm.asked = true) ∧
    (imgNat [0x13, 0x85, 0, 0, 1, 0] 4 2 ≠ 0 ∧ imgNat [0x13, 0x85, 0, 0, 1, 0] 4 2 ≠ up.sec.spdm.inNext ∧
      imgNat [0x13, 0x85, 0, 0, 1, 0] 4 2 = (d { inNext := 1 }).sec.spdm.inNext) ∧
    ((let q : List Byte := [0x13, 0x85, 1, 0, 0, 0, 0, 0, 4, 0, 0, 0, 4, 0, 0, 0, 0x10, 0x84, 0, 0]
      reqByte q 2 % 2 = 1 ∧ imgNat q 4 2 = 0 ∧ reqByte ((q.drop 16).take (imgNat q 8 4)) 1 = 0x84)) ∧
    16 < (d { xfer := 42, chunkOut := [0], handle := 7 }).sec.spdm.xfer ∧
    (d { xfer := 42, chunkOut := [0], handle := 7 }).sec.spdm.chunkOut ≠ [] ∧ reqByte [0x13, 0x86, 0, 7, 0, 0] 3 = 7 := by
  decide +kernel
/-- The DIGESTS response is longer than a transfer of 42 bytes: 148 bytes. -/
theorem witness_large_response : 0 < ({ up.sec.spdm with xfer := 42 } : Spdm).xfer ∧ (42 : Nat) < 4 + 3 * 48 := by decide
theorem witness_fault_hub :
    let r : Report := ⟨.contained, 8, 0, 1, .d, 3, 0, 0, 0, 0, 0, false⟩
    let v := up.fset (R.FHFIRST_VALID 2) 1
    let w (auto st cnt : Nat) : State := { (((up.fset R.FHCFG_AUTOWR auto).fset R.FHSTAT_STATE st).fset R.FHSTAT_WRCNT cnt) with
      sec := { up.sec with stopAt := some (0, 10) } }
    (({ up with reports := [r] } : State).reports = r :: [] ∧ nextReport ({ up with reports := [r] } : State).reports = some r) ∧
    (up.sec.begun = true ∧ collUp up (lockColl 0 0) = true ∧ collUp State.reset (lockColl 0 0) = false ∧
      State.reset.sec.base = false ∧ collUp (atStage 1 { base := true }) (lockColl 0 0) = false ∧
      (up.fset R.FHSTAT_STATE 2).grave = true) ∧ up.fget (R.FHFIRST_VALID 2) = 0 ∧ v.fget (R.FHFIRST_VALID 2) = 1 ∧
    (up.sec.base = true ∧ 2 ≤ up.stage) ∧ (w 1 1 2).sec.stopAt = some (0, 10) ∧
    ((w 1 1 2).fget R.FHCFG_AUTOWR = 1 ∧ (w 1 1 2).fget R.FHSTAT_STATE = 1 ∧ (w 1 1 2).fget R.FHSTAT_WRCNT < 3 ∧
      (w 1 1 2).reports = [] ∧ (w 1 1 2).round.win = none) ∧ (w 1 1 3).fget R.FHSTAT_WRCNT = 3 ∧ (w 0 1 0).fget R.FHCFG_AUTOWR = 0 := by decide
theorem witness_fencing :
    let c := fly 2 movFlight
    let ch := up.setChan 95 { flying := [⟨⟨0, 1, false, 0, false, 0⟩, 0, [0], [], none, true⟩] }
    let p := (up.fset R.FHSTAT_STATE 1).setPort 23 { tx := [(1, [⟨0, [], none⟩])] }
    let z : State := { up with sec := { up.sec with fencedAt := [(fenceKey 1 95, some 0)] } }
    let u : State := { c.fset (R.CPCTL_ENABLE 0) 0 with
      clk := { c.clk with present := true, tenths := 2000000 }, sec := { c.sec with toldAt := [(0, some 0)] } }
    let l := up.fset R.TLCTL_LOCK 1
    (bitOf c.fenceCores 0 = false ∧ unstopped (c.fset (R.CPCTL_ENABLE 0) 0) 0 0 = true) ∧
    (u.clk.present = true ∧ unstopped u 0 0 = true ∧ onGrid (drainDue u 0 0) ≤ u.clk.tenths) ∧
    (bitOf ch.fenceChans 95 = false ∧ unstopped ch 1 95 = true) ∧ (bitOf p.fencePorts 23 = false ∧ unstopped p 2 23 = true) ∧
    (fenceIdx (up.fget R.FHFNC_KIND) 127 = true ∧ (96 : Nat) ≤ 127) ∧
    (up.unarmed ∧ ∀ o ∈ [R.FHFNC, R.FHFIRST 4, R.FHFIRST 0, R.FHCONT, R.TLCTL], up.reaches .host o) ∧
    (tget none z.sec.fencedAt (fenceKey 1 95) = some 0 ∧ z.armedSlot 0x4D 95 [2] 0 = none ∧ onGrid (0 + (z.fset R.FHCFG_DRTO 0).fget R.FHCFG_DRTO * 100000) ≤ z.clk.tenths) ∧
    up.fget R.TLCTL_LOCK = 0 ∧ l.fget R.TLCTL_LOCK = 1 ∧ l.unarmed ∧ l.reaches .host R.TLCTL := by
  unfold State.unarmed State.reaches; decide +kernel
theorem witness_injection :
    let o := (up.fset R.TLCTL_OPEN 1).fset (R.INJSEL_DET 15) 0x4F
    let t : State := { o.fset (R.INJSTAT_ARMED 0) 1 with injPoint := [(0, (0x4F000000, 0))] }
    (o.armedSlot 0x02 11 [2] 0 = none ∧ o.reaches .host (R.INJCTL 15) ∧ o.fget R.TLCTL_OPEN = 1 ∧
      (∀ m, m < 16 → o.fget (R.INJSTAT_ARMED m) ≠ 1) ∧ o.fget (R.INJSEL_DET 15) ∈ detectors) ∧
    (t.armedSlot 0x02 11 [2] 0 = none ∧ t.fget (R.INJSTAT_ARMED 0) = 1 ∧ t.reaches .host (R.INJCTL 15) ∧
      (t.point 0).1.toNat / 65536 = (t.rd (R.INJSEL 15)).toNat / 65536) ∧ (o.fset (R.INJSEL_DET 15) 0x50).fget (R.INJSEL_DET 15) ∉ detectors ∧
    up.fget R.TLCTL_OPEN = 0 ∧ up.reaches .host (R.INJCTL 15) ∧ up.armedSlot 0x02 11 [2] 0 = none := by
  unfold State.reaches; decide +kernel
/-- A cap of 1,000 W against 999, 900 and 1,001 W; a die below its point; the brake; sensors at 25 °C. -/
theorem witness_power :
    let p (sum low : Nat) : State := { up.fset R.PCCFG_CAP 1000 with pw := { sum := sum, count := 1, low := low } }
    let l : List (Option Nat) := List.replicate 98 (some 25)
    let r : State := { up.fset (R.VFSTAT_REQ 3) 15 with
      clk := { up.clk with present := true, tenths := 100032 }, pw := { up.pw with riseAt := [(3, some 0)] } }
    (up.sec.base = true ∧ up.unarmed ∧ up.pw.count = 0) ∧
    (∀ x ∈ [(1001, 0), (900, 9), (900, 8), (901, 0), (1000, 0)], 0 < (p x.1 x.2).pw.count ∧
      min 65535 ((p x.1 x.2).pw.sum / (p x.1 x.2).pw.count) = x.1 ∧ (p x.1 x.2).pw.low = x.2 ∧
      (p x.1 x.2).fget R.PCCFG_CAP = 1000) ∧
    (r.clk.present = true ∧ presentPoint r 3 < effPoint r 3 ∧
      onGrid ((tget none r.pw.riseAt 3).getD r.clk.tenths + 100000) ≤ r.clk.tenths) ∧
    (presentPoint up 3 < effPoint (up.fset (R.VFSTAT_REQ 3) 15) 3 ∧ effPoint (up.fset (R.VFSTAT_REQ 3) 0) 3 ≤ presentPoint up 3) ∧
    (up.fget R.PWRSTAT_BRAKE = 0 ∧ (up.fset R.PWRSTAT_BRAKE 1).fget R.PWRSTAT_BRAKE = 1) ∧
    ((∀ k, k < 98 → (l[k]?).join.isSome = true ∧ bitOf up.pw.failed k = false) ∧
      (hottest (reading up l) (upto 88)).isSome = true ∧ alertSensor up l = none ∧
      (alertSensor up (List.replicate 98 (some 120))).isSome = true) ∧
    (up.pw.tripped = false ∧ up.sec.begun = true ∧ collUp up 5 = true ∧ (let b := atStage 1 { base := true }; b.pw.tripped = false ∧
      collUp b 4 = true ∧ collUp b 5 = false) ∧ up.sec.in54 = true ∧ up.clk.present = true ∧ State.reset.clk.started = false ∧ up.clk.started = true) := by
  unfold State.unarmed; decide +kernel
/-- A sideband write transfer of a frame type and a payload at the dynamic address 0x20. -/
def sbXfer (ft : Byte) (p : List Byte) : List Byte :=
  let d : List Byte := [0x40, ft] ++ leBytes 2 p.length ++ p
  d ++ [BitVec.ofNat 8 (pec d)]
def sb0 (f : Sideband → Sideband) : State := { up with sec := { up.sec with sb := f { dyn := some 0x20 } } }
set_option maxRecDepth 16384 in
theorem witness_sideband :
    (∀ q ∈ [((1 : Byte), ([8] : List Byte)), (1, 1 :: List.replicate 1024 0), (1, [9]), (2, leBytes 4 R.FHCONT), (2, leBytes 4 0),
        (3, leBytes 4 R.FHCONT ++ leBytes 4 1), (3, leBytes 4 R.FHVEC ++ leBytes 4 2047), (4, [])],
      5 ≤ (sbXfer q.1 q.2).length ∧ pec (sbXfer q.1 q.2).dropLast = reqByte (sbXfer q.1 q.2) ((sbXfer q.1 q.2).length - 1) ∧
      imgNat (sbXfer q.1 q.2) 2 2 = (sbXfer q.1 q.2).length - 5 ∧ reqByte (sbXfer q.1 q.2) 0 = sbAddr (sb0 id) * 2 ∧
      reqByte (sbXfer q.1 q.2) 1 = q.1.toNat) ∧
    ((sb0 id).sec.base = true ∧ (sb0 id).sec.sb.busy = false ∧ (sb0 id).unarmed ∧ 1 ≤ (sb0 id).stage) ∧
    (sbReach 0 = false ∧ sbReach R.FHCONT = true ∧ sbReach R.FHVEC = true) ∧
    ((sb0 fun b => { b with busy := true }).sec.sb.busy = true ∧ (sb0 id).sec.sb.resp = none ∧
      (sb0 fun b => { b with resp := some (0, []) }).sec.sb.resp = some (0, [])) ∧
    up.sec.sb.dyn = none ∧ (sb0 id).sec.sb.dyn = some 0x20 := by unfold State.unarmed; decide +kernel

/-! ## Single operations and commands against the spec's worked examples -/

/-- 07_command_instruction_set.md, Worked example: encoding the forward product. -/
theorem test_weave_word :
    let w := wordOf 0x1070C00023800000 0x00320D0000483510
    classOf w = 0 ∧ opOf w = 0 ∧ cmplOf w = false ∧ wenOf w = true ∧ wctrOf w = 2100 ∧ wthrOf w = 1 ∧ senOf w = true ∧
    sctrOf w = 2101 ∧ samtOf w = 1 ∧ tagOf w = 0x0107 ∧ ldxOf w = 12 := by decide
/-- 08_memory_tiers.md, after R374: element (5, 20) of an E4M3 skewed tile, and (13, 20). -/
theorem test_skewed_tile : tileByte .e4m3 false 0 5 20 = 180 ∧ tileByte .e4m3 false 0 13 20 = 444 := by decide
/-- 03_number_formats.md, Worked examples: 15.5, 13.7, 0.0031 and −0.0008 under the scale 2⁻⁵, either side of D. -/
theorem test_mx_stochastic :
    let f (b draw : Nat) := mxElem ⟨4, 3, 7, .ofp⟩ .stoch draw (-5) (of32 b)
    f 0x41780000 0 = (0x7E, Fl.mxclamp) ∧ f 0x41780000 65535 = (0x7E, Fl.mxclamp) ∧
    (f 0x415B3333 45000).1 = 0x7E ∧ (f 0x415B3333 46000).1 = 0x7D ∧ (f 0x3B4B295F 45000).1 = 0x1D ∧
    (f 0x3B4B295F 46000).1 = 0x1C ∧ (f 0xBA51B717 7000).1 = 0x8E ∧ (f 0xBA51B717 7100).1 = 0x8D := by decide +kernel
/-- 03_number_formats.md, Worked examples: a gradient in E5M2 without and with the loss scale. -/
theorem test_e5m2_gradient :
    convertTo .e5m2 ⟨true, .near⟩ 0 (of32 0x315507C7) = (0, Fl.under) ∧
    (convertTo .e5m2 ⟨true, .near⟩ 0 (of32 0x38D507C7)).1 = 0x07 := by decide +kernel
/-- 09_queues_and_sync_counters.md, Worked example: the third arrival and an early one of core 2, and core 3 completing. -/
theorem test_barrier_example :
    let k (val : W32) (arrived early : Nat) : Ctr :=
      { owner := some .t, mode := 3, val := val, npart := 4, arrived := arrived, early := early }
    ({ owner := some .t, mode := 3, val := 0xFFFE0000 } : Ctr).arrive 0 4 = some (k 0xFFFE0001 1 0) ∧
    (k 0xFFFE0002 3 0).arrive 2 4 = some (k 0xFFFE0003 7 0) ∧ (k 0xFFFE0003 7 0).arrive 2 4 = some (k 0xFFFE0003 7 4) ∧
    (k 0xFFFE0003 7 4).arrive 2 4 = none ∧ (k 0xFFFE0003 7 4).arrive 3 4 = some (k 0xFFFF0001 4 0) ∧
    ((k 0xFFFF0003 7 0).arrive 3 4).map (·.val) = some 0 := by decide +kernel
/-- R437, R454: a doorbell of −1 at 0 leaves the counter and adds 1 to SNUNDER; R440: a register set of an unowned counter. -/
theorem test_counter_underflow :
    (match exec (.counterDoorbell 5 0xFFFFFFFF) (ctr5 0 0) with
      | .next t => decide ((t.ctr 5).val = 0) && decide (t.rd (R.SNUNDER 0) = 1) && decide (t.reports.length = 1)
      | _ => false) = true := by decide
/-- R497: ARBSEED loads 0 as 1. -/
theorem test_arbseed_zero :
    (match exec (.arbseedWrite .host 137 0) up with | .next t => decide (t.rd (R.ARBSEED 137) = 1) | _ => false) = true := by
  decide
/-- R311: an SADD that retires adds, and its unit is free. -/
theorem test_sadd_retires :
    (match exec (.instructionRetire 0 5) (fly 5 saddFlight) with
      | .next t => decide ((t.ctr 5).val = 3) && (inflightAt t 0 5).isNone
      | _ => false) = true := by decide
/-- R699, R713: PERIOD may change while Rounds are stopped; R17: a value below 100 µs is refused. -/
theorem test_period_write :
    (match exec (.registerWrite .host R.RNDPER 2000 15) up with
      | .next t => decide (t.fget R.RNDPER_PERIOD = 2000) | _ => false) = true ∧
    (match exec (.registerWrite .host R.RNDPER 99 15) up with
      | .next t => decide (t.fget R.RNDPER_PERIOD = 1000) | _ => false) = true := by decide
/-- The queue: a step takes the front command and leaves the rest. -/
theorem test_step_takes_front :
    (match step { State.reset with pending := [.perstAssert, .perstDeassert] } with
      | .next t => t.perst && decide (t.pending = [.perstDeassert]) | _ => false) = true := by decide

end Sys2Proof.Tests
end

section
/-! SUPPORT. A CLRCNT strobe zeroes exactly the registers it clears, and the statement
about the counters of every block that follows from it. -/

namespace Sys2Proof.Machine

/-- Clearing registers has exactly the effect that a claim about cleared counters names. -/
theorem State.zeroed_clear (s : State) (offs : List Nat) : s.zeroed (s.clear offs) offs :=
  ⟨⟨s.clear_regs offs, fun _ h => s.rd_clear_other offs h⟩, fun _ h => s.rd_clear_mem offs h⟩

/-- A command that is a strobe clearing registers zeroes exactly those, once its access reaches the block (R249, R813). -/
theorem zeroed_of_exec_eq_strobe_clear {s : State} {req : Req} {c : Instr} {off : Nat} {offs : List Nat}
    (hc : exec c s = strobe s req off (·.clear offs)) (h : s.reaches req off) :
    ∃ t, exec c s = .next t ∧ s.zeroed t offs :=
  ⟨s.clear offs, hc.trans (strobe_reaches h _), s.zeroed_clear offs⟩

/-- MEMCTL.CLRCNT clears the corrected and uncorrected counters of the four dies and INWREF (R412). -/
theorem exec_memctlClrcnt (req : Req) (s : State) :
    exec (.memctlClrcnt req) s = strobe s req R.MEMCTL (·.clear [R.MEMCOR 0, R.MEMCOR 1, R.MEMCOR 2, R.MEMCOR 3,
      R.MEMUNC 0, R.MEMUNC 1, R.MEMUNC 2, R.MEMUNC 3, R.INWREF]) := rfl

/-- FHCTL.CLRCNT clears FHCNT of every collector and class (R813). -/
theorem exec_fhctlClrcnt (req : Req) (s : State) :
    exec (.fhctlClrcnt req) s = strobe s req R.FHCTL
      (·.clear ([0, 1, 2, 3, 4, 5].flatMap fun c => [0, 1, 2, 3, 4].map fun k => R.FHCNT c k)) := rfl

/-- Settles O8: every CLRCNT is a strobe that clears its block's table of counters, so the clearing rule gives each clause;
the tables of MEMCTL and FHCTL are computed and are written out first. -/
theorem clearCountersOfEveryBlock : Obligations.ClearCountersOfEveryBlock := by
  intro req c e d r ch p l s
  refine ⟨?wv, ?vu, ?cp, ?ci, ?sn, ?mq, ?rnd, ?sc, ?mem, ?dma, ?arb, ?wy, ?fh, ?step, ?led, ?rt, ?lnk, ?col, ?reg⟩
  case mem => exact zeroed_of_exec_eq_strobe_clear (exec_memctlClrcnt req s)
  case fh => exact zeroed_of_exec_eq_strobe_clear (exec_fhctlClrcnt req s)
  all_goals exact zeroed_of_exec_eq_strobe_clear rfl

end Sys2Proof.Machine
end
